-- ==== Sys2Proof/Word.lean ====
section
/-!
DEFINITION. The word types of the Bostrel 3260 model. Bit vectors stand only where the manual numbers bits, wraps a
number or computes with it (tags modulo 256 and sequence numbers modulo 65536, 00_scope "Numbers"); slots, alignment
positions and pool entries are plain bounded indexes.
-/

namespace Sys2Proof

/-- One byte of the profile image (02, section 2.8). -/
abbrev Byte := BitVec 8

/-- A 32-bit word of a card window. -/
abbrev Word32 := BitVec 32

/-- A word number of a card window, 0 to 16383 (00_scope, "Slots and windows"). -/
abbrev WordNo := BitVec 14

/-- A link tag, 0 to 255, modulo 256 (R101). -/
abbrev Tag := BitVec 8

/-- A write's sequence number, 0 to 65535, modulo 65536 (R45). -/
abbrev Seq := BitVec 16

/-- The 20 address lines of the controller's local bus (R61). -/
abbrev BusAddr := BitVec 20

/-- The 64 bits of one receive frame: bit `p` is the bit received at position `p` (R85). -/
abbrev RxFrame := BitVec 64

/-- A slot, 0 to 15. -/
abbrev Slot := Fin 16

/-- A bit position of a frame, 0 to 63 (R83). -/
abbrev Position := Fin 64

/-- An entry of the journal pool of 4096 (R1). -/
abbrev EntryId := Fin 4096

/-- One of the four replay channels (R147). -/
abbrev ChannelNo := Fin 4

end Sys2Proof
end

