-- ==== Sys2Proof/Syntax.lean ====
section
/-!
DEFINITION. The commands of the block: one constructor for each row of spec/opcode_table.json, with what the row's event
carries from outside (the access on the bus, the bits of a receive frame, the bytes of the profile image). The table gives
no operands and no bits; the operands are read from the rule of each row (notes/assumptions/1.md).
-/

namespace Sys2Proof

/-- The five access kinds that the bus marks on its access-kind lines (R61). -/
inductive AccessKind where
  | read
  | write
  | orderedWrite
  | lockedRead
  | lockedWrite
  deriving DecidableEq, Repr

/-- The three access kinds that write. A control command may be carried by any of them (R66). -/
inductive WriteAccess where
  | write
  | ordered
  | locked
  deriving DecidableEq, Repr

/-- One command for each row of the table, in the table's order. -/
inductive Instr where
  /-- RST_ASSERTED (R33): the reset input asserts. -/
  | rstAsserted
  /-- RST_DEASSERTED (R34): the reset input deasserts and the profile load begins. -/
  | rstDeasserted
  /-- PROFILE_HEADER_READ (R35): the six header bytes of the image, offset 0 first, have been read. -/
  | profileHeaderRead (header : Vector Byte 6)
  /-- LOAD_COMPLETE (R39): the bytes of the image from offset 6 on have been read. -/
  | loadComplete (body : List Byte)
  /-- RECEIVE_FRAME_END (R85): a receive frame of a slot's link ends; its 64 bits. -/
  | receiveFrameEnd (slot : Slot) (bits : RxFrame)
  /-- MULTIFRAME_JUDGED (R89): frame 15 of an aligned multiframe has ended. -/
  | multiframeJudged (slot : Slot)
  /-- LOSS_OF_SIGNAL (R91): a link's silence count reaches 1024. -/
  | lossOfSignal (slot : Slot)
  /-- TRANSMIT_MULTIFRAME_START (R102): the bridge begins a multiframe toward a slot. -/
  | transmitMultiframeStart (slot : Slot)
  /-- RESPONSE_TIMEOUT (R107): a response timer reaches 2 ms. -/
  | responseTimeout (slot : Slot)
  /-- WAIT_TIMER_EXPIRY (R108): a WAIT timer reaches 200 microseconds. -/
  | waitTimerExpiry (slot : Slot)
  /-- COMMIT_LIMIT_EXPIRY (R108): a commit timer reaches 50 ms. -/
  | commitLimitExpiry (slot : Slot)
  /-- READY_LIMIT_EXPIRY (R117): a ready timer reaches the ready limit. -/
  | readyLimitExpiry (slot : Slot)
  /-- HOLD_OFF_EXPIRY (R124): a hold-off timer reaches the hold-off. -/
  | holdOffExpiry (slot : Slot)
  /-- ABSENCE_LIMIT_EXPIRY (R125): an absence timer reaches the absence limit. -/
  | absenceLimitExpiry (slot : Slot)
  /-- STABILITY_WINDOW_EXPIRY (R122): a stability timer reaches 10 s. -/
  | stabilityWindowExpiry (slot : Slot)
  /-- CONTROLLER_READ (R73): a READ access. -/
  | controllerRead (addr : BusAddr)
  /-- CONTROLLER_WRITE (R72): a WRITE access. -/
  | controllerWrite (addr : BusAddr) (value : Word32)
  /-- ORDERED_WRITE (R50): an ORDERED WRITE access. -/
  | orderedWrite (addr : BusAddr) (value : Word32)
  /-- LOCKED_READ (R77): a LOCKED READ access. -/
  | lockedRead (addr : BusAddr)
  /-- LOCKED_WRITE (R79): a LOCKED WRITE access. -/
  | lockedWrite (addr : BusAddr) (value : Word32)
  /-- READ_BRIDGE_STATUS (R68): a READ of word 3 of a slot's window. -/
  | readBridgeStatus (slot : Slot)
  /-- HEADER_WORD_FAULT (R65): a write to word 0 or 3, or a read of word 1. -/
  | headerWordFault (kind : AccessKind) (addr : BusAddr) (value : Word32)
  /-- NOT_WORD_FORM_ACCESS (R64): a byte or half-word access (`none`: one of the three remaining kind codes), or an
  access of any kind at an unaligned address. -/
  | notWordFormAccess (kind : Option AccessKind) (addr : BusAddr) (value : Word32)
  /-- CLEAR (R136): a write of the CLEAR code to word 1 of a slot's window. -/
  | clear (kind : WriteAccess) (slot : Slot)
  /-- RESTART (R136): a write of the RESTART code to word 1. -/
  | restart (kind : WriteAccess) (slot : Slot)
  /-- RETIRE (R136): a write of the RETIRE code to word 1. -/
  | retire (kind : WriteAccess) (slot : Slot)
  /-- REBASE (R136): a write of the REBASE code to word 1. -/
  | rebase (kind : WriteAccess) (slot : Slot)
  /-- CONTROL_WORD_INVALID_WRITE (R66): a write of the ADOPT code, or of no command code, to word 1. -/
  | controlWordInvalidWrite (kind : WriteAccess) (slot : Slot) (value : Word32)
  /-- PACER_TICK (R163): the Pacer's 1 ms tick. -/
  | pacerTick
  /-- PWARN_ASSERTED (R166): the PWARN line changes to asserted. -/
  | pwarnAsserted
  /-- PWARN_DEASSERTED (R167): the PWARN line changes to deasserted. -/
  | pwarnDeasserted
  /-- QUIET_INTERVAL_EXPIRY (R167): the quiet timer reaches the quiet interval. -/
  | quietIntervalExpiry
  deriving DecidableEq, Repr

end Sys2Proof
end

