-- ==== Sys2Proof/Decode.lean ====
section
/-!
DEFINITION. The commands that words spell. spec/opcode_table.json gives no row any bits: the block's commands are events and
accesses, not words, so no word spells a command.
-/

namespace Sys2Proof

/-- The command that a word spells by the table's bits: no row has any. -/
def decodeTableWord (_nbits _w : Nat) : Option Instr := none

end Sys2Proof
end

