-- ==== Sys2Proof/Config.lean ====
section
/-!
DEFINITION. The numbers the part fixes. Every bridge time is derived from REFCLK, 16.384 MHz (00_scope, pin table), so times
are counted in REFCLK periods. The manual leaves no value open, so there is no opaque constant here.
-/

namespace Sys2Proof.Config

/-- Entries of the journal pool (R1). -/
def journalPool : Nat := 4096

/-- Entries of the Pending Write Queue pool (R42). -/
def queuePool : Nat := 512

/-- The silence count at which loss of signal is declared, in bit periods (R91). -/
def silenceLimit : Nat := 1024

/-- The age in receive frames past which a sighting is dropped (R85). -/
def sightingAge : Nat := 32

/-- Sends of one request before it fails (R107). -/
def maxSends : Nat := 4

/-- Refusals in one replay that make a replay failure (R21). -/
def replayNakLimit : Nat := 8

/-- Records confirmed since admission or resumption before a replay may be suspended (R158). -/
def progressMinimum : Nat := 32

/-- Attempt level at which a card is quarantined (R132). -/
def attemptLimit : Nat := 3

/-- Highest backoff level (R166). -/
def maxBackoff : Nat := 3

/-- Sixteenths in a load unit (R164). -/
def sixteenths : Nat := 16

/-- REFCLK periods in 1 ms (R163). -/
def msPeriods : Nat := 16384

/-- The response timer's limit, 2 ms, in REFCLK periods (R107). -/
def responseLimit : Nat := 2 * msPeriods

/-- The WAIT timer's limit, 200 microseconds: 3276.8 REFCLK periods, so it is reached in the 3277th (R108). -/
def waitLimit : Nat := 3277

/-- The commit limit, 50 ms, in REFCLK periods (R108). -/
def commitLimit : Nat := 50 * msPeriods

/-- The stability window, 10 s, in REFCLK periods (R122). -/
def stabilityWindow : Nat := 10000 * msPeriods

/-- The profile's format code (R35). -/
def formatCode : Nat := 0x3260

/-- The least and greatest image length (R35). -/
def minImage : Nat := 85
def maxImage : Nat := 1029

/-- What the Profile Loader sends the serial memory: the read command byte and a 24-bit address of zero (R34). -/
def spiReadCommand : List Byte := [0x03#8, 0x00#8, 0x00#8, 0x00#8]

end Sys2Proof.Config
end

