-- ==== Sys2Proof/Machine/State.lean ====
section
/-!
DEFINITION. The state of the block: every piece the manual gives it, as plain data, grouped by the block of the manual that
holds it, with the queue of commands waiting. INVENTORY.md lists each field with the rule that names it.
-/

namespace Sys2Proof.Machine

/-! ## The shelf profile (chapter 2) -/

/-- The four range classes (section 2.1). -/
inductive RangeClass where
  | keep
  | sequence
  | live
  | barred
  deriving DecidableEq, Repr

/-- One range of a kind entry (R29). The truncate word is a SEQUENCE range's alone. -/
structure WordRange where
  first : Nat
  last : Nat
  cls : RangeClass
  weight : Nat
  truncate : Option Nat
  deriving DecidableEq, Repr

/-- One entry of the kind table (R28). A range's index is its position in the list. -/
structure KindEntry where
  code : Byte
  admissionWeight : Nat
  ranges : List WordRange
  deriving DecidableEq, Repr

/-- One entry of the slot table (R31). -/
structure SlotEntry where
  priority : Nat
  queueLimit : Nat
  quota : Nat
  likeReplacement : Bool
  deriving DecidableEq, Repr

/-- The parameter block (R32): times in ms, the rate in sixteenths per ms, the cap in sixteenths. -/
structure Params where
  criterion : Nat
  mimicChecking : Bool
  holdOff : Nat
  absenceLimit : Nat
  readyLimit : Nat
  baseRate : Nat
  cap : Nat
  quietInterval : Nat
  deriving DecidableEq, Repr

/-- A published profile (R39, R40). -/
structure Profile where
  params : Params
  slots : Vector SlotEntry 16
  kinds : List KindEntry
  deriving DecidableEq, Repr

/-- The part modes (R33). -/
inductive PartMode where
  | loading
  | normal
  | unprotected
  deriving DecidableEq, Repr

/-- The Profile Loader: the part mode, the RST line, the serial memory's lines (R34), the bytes kept, their running sum and
the published profile. -/
structure Loader where
  mode : PartMode
  rstAsserted : Bool
  /-- SCS asserted: a load is in progress (R34). -/
  scs : Bool
  /-- The bytes sent on SDO since SCS was last asserted (R34). -/
  sent : List Byte
  /-- Every byte of the image received in this load (R34). -/
  bytes : List Byte
  /-- The running sum of the bytes received (R34). -/
  sum : Nat
  profile : Profile
  deriving DecidableEq, Repr

/-! ## The Restore Journal (chapter 1) -/

/-- The class of a journal entry (R2). -/
inductive EntryClass where
  | keep
  | sequence
  deriving DecidableEq, Repr

/-- The state of a journal entry (R2). -/
inductive EntryState where
  | confirmed
  | stale
  deriving DecidableEq, Repr

/-- A journal entry in use (R2). -/
structure JEntry where
  owner : Slot
  word : WordNo
  value : Word32
  range : Fin 8
  cls : EntryClass
  state : EntryState
  check : Bool
  deriving DecidableEq, Repr

/-- A journal list's element: a pool entry and what it holds (R1, R2). -/
structure Held where
  id : EntryId
  entry : JEntry
  deriving DecidableEq, Repr

/-- A key of the KEEP lookup map and its content (R5). -/
structure KeepKey where
  slot : Slot
  word : WordNo
  id : EntryId
  deriving DecidableEq, Repr

/-- The journal pool: the free count, the free list, the free marks and the KEEP lookup map (R1, R5). -/
structure Pool where
  freeCount : Nat
  freeList : List EntryId
  freeMarks : BitVec 4096
  keepMap : List KeepKey
  deriving DecidableEq, Repr

/-! ## The Write Queue Manager (chapter 3) -/

/-- The control commands the controller may write (section 2.8, R66). -/
inductive Command where
  | clear
  | restart
  | retire
  | rebase
  deriving DecidableEq, Repr

/-- The write kind of a queue entry; a CONTROL entry carries its command (R43). -/
inductive WriteKind where
  | plain
  | ordered
  | locked
  | control (command : Command)
  deriving DecidableEq, Repr

/-- A queue entry (R43). `tag` is present exactly while the in-flight flag is set. -/
structure QEntry where
  seq : Seq
  word : WordNo
  value : Word32
  kind : WriteKind
  cls : Option RangeClass
  tag : Option Tag
  deriving DecidableEq, Repr

/-- What all sixteen queues share: the pool's free count (R42), the next sequence number (R45) and the low mark (R47). -/
structure Wqm where
  free : Nat
  nextSeq : Seq
  lowMark : Seq
  deriving DecidableEq, Repr

/-! ## The Controller Bus Port (chapter 4) -/

/-- A read waiting for its card's answer with the bus held (R61): a pass-through read, or a LOCKED READ. -/
structure WaitingRead where
  slot : Slot
  word : WordNo
  locked : Bool
  deriving DecidableEq, Repr

/-- The lock record (R61). -/
structure LockRecord where
  slot : Slot
  word : WordNo
  deriving DecidableEq, Repr

/-- The three answers of the bus, READY with data for a read (00_scope, "Responses"). -/
inductive Response where
  | ready (data : Option Word32)
  | retry
  | fault
  deriving DecidableEq, Repr

/-- The port: the current access, the lock record, and the response lines' answer in the latest event, if it completed an
access. -/
structure Port where
  current : Option WaitingRead
  lock : Option LockRecord
  response : Option Response
  deriving DecidableEq, Repr

/-! ## A Slot Link Unit (chapters 5 and 6) -/

/-- A timer: stopped, or running with its elapsed time in REFCLK periods. -/
inductive Timer where
  | stopped
  | running (elapsed : Nat)
  deriving DecidableEq, Repr

/-- The framer's state; while ALIGNED the position, and as the phase the frames of the current multiframe received so far
(R83, R88). -/
inductive FramerState where
  | search
  | aligned (position : Position) (phase : Nat)
  deriving DecidableEq, Repr

/-- A sighting of the alignment word: its position and its age in receive frames (R85). -/
structure Sighting where
  position : Position
  age : Nat
  deriving DecidableEq, Repr

/-- The four status bits: each valid with a value, or invalid (as candidates: none) (R83, R93). -/
structure StatusBits where
  fresh : Option Bool
  ready : Option Bool
  pgood : Option Bool
  busy : Option Bool
  deriving DecidableEq, Repr

/-- The cause that an out-of-frame is reported with (R92). -/
inductive LossCause where
  | erroredWords
  | lossOfSignal
  deriving DecidableEq, Repr

/-- A framer (R83). -/
structure Framer where
  state : FramerState
  sightings : List Sighting
  /-- Judgements of up to 4 aligned multiframes, oldest first; `true` is errored. -/
  history : List Bool
  lastPosition : Option Position
  mimic : Bool
  bits : StatusBits
  candidates : StatusBits
  silence : Nat
  /-- Loss of signal has been declared and no transition has come since (R91). -/
  lossDeclared : Bool
  /-- The receive frame in progress began before the search did, which begins with the next one (R92). -/
  partFrame : Bool
  /-- The cause of the framer's latest report of out-of-frame, if it has made one (R92). -/
  lossCause : Option LossCause
  /-- The bit received last, if any: a transition is a bit that differs from it (R91). -/
  lastBit : Option Bool
  /-- The last 32 receive frames, newest first: what R85, R89 and R93 look back at. -/
  frames : List RxFrame
  deriving DecidableEq, Repr

/-- The kinds of link request (R41). -/
inductive ReqKind where
  | write
  | read
  | unlock
  deriving DecidableEq, Repr

/-- A link request (R41, R100). -/
structure Request where
  kind : ReqKind
  flag : Bool
  tag : Tag
  word : WordNo
  value : Word32
  deriving DecidableEq, Repr

/-- The relink requests of the Relink Controller and the Replay Engine (R103). -/
inductive RelinkKind where
  | identity
  | restart
  | adopt
  | record (word : WordNo) (value : Word32)
  deriving DecidableEq, Repr

/-- A relink request, and whether the Relink Controller marks it as forced (R102). -/
structure RelinkReq where
  what : RelinkKind
  forced : Bool
  deriving DecidableEq, Repr

/-- The source of a transaction (R100, R106). -/
inductive Source where
  | relink (request : RelinkReq)
  | read
  | queueHead
  | unlock
  deriving DecidableEq, Repr

/-- A transaction record (R100). -/
structure Txn where
  req : Request
  source : Source
  /-- ACTIVE, or else SUSPENDED. -/
  active : Bool
  sends : Nat
  /-- A send that waits for the start of the next transmitted multiframe (R102, R107, R108, R112). -/
  sendDue : Bool
  response : Timer
  wait : Timer
  commit : Timer
  deriving DecidableEq, Repr

/-- The port's read handed to a link and not yet started: its word and its lock flag (R100). -/
structure PendingRead where
  word : WordNo
  lockFlag : Bool
  deriving DecidableEq, Repr

/-- The transaction logic of a Slot Link Unit (R100), the set-aside transaction (R113) and the request in the multiframe
being transmitted (R84). -/
structure Link where
  tagCounter : Tag
  lastWriteTag : Option Tag
  outstanding : Option Txn
  setAside : Option Txn
  pendingRelink : Option RelinkReq
  unlockOwed : Bool
  pendingRead : Option PendingRead
  sending : Option Request
  /-- Sends made due by a transaction that an answer has ended since, oldest first: each is still made (R109). -/
  lateSends : List Request
  deriving DecidableEq, Repr

/-! ## The Card Context (chapter 7) -/

/-- The nine card states (section 7.2). -/
inductive CardState where
  | empty
  | inService
  | lossHold
  | down
  | identify
  | admitWait
  | replaying
  | suspended
  | quarantined
  deriving DecidableEq, Repr

/-- The quarantine reasons (R115). -/
inductive Reason where
  | absent
  | mismatch
  | incomplete
  | journalError
  | unstable
  | unresponsive
  deriving DecidableEq, Repr

/-- A card's identity (section 2.8). -/
structure Identity where
  kind : Byte
  revision : Byte
  serial : BitVec 16
  deriving DecidableEq, Repr

/-- A Card Context record (R115). Its slot-table fields stand in the published profile; its journal count is the length of
the slot's journal list. -/
structure Card where
  state : CardState
  bound : Option Identity
  candidate : Option Identity
  incomplete : Bool
  nakCount : Nat
  sinceResume : Nat
  replayStarted : Bool
  attempt : Nat
  reason : Option Reason
  expectedRestart : Bool
  wipeOwed : Bool
  adoptPending : Bool
  /-- The identity read that follows a CLEAR of a QUARANTINED card has not brought its DATA yet (R144). -/
  identityOwed : Bool
  refused : Bool
  /-- The retired mark (R141). -/
  retired : Bool
  /-- In DOWN: waiting for a restart that has not yet shown (R126). -/
  restartWait : Bool
  holdOff : Timer
  absence : Timer
  /-- The absence timer's value kept while the card that left DOWN is in IDENTIFY (R125). -/
  absenceKept : Option Nat
  ready : Timer
  stability : Timer
  deriving DecidableEq, Repr

/-- Everything one slot owns. -/
structure SlotState where
  framer : Framer
  link : Link
  card : Card
  /-- The slot's journal list, oldest first (R4). -/
  journal : List Held
  /-- The slot's Pending Write Queue, head first (R42). -/
  queue : List QEntry
  deriving DecidableEq, Repr

/-! ## The Replay Engine and the Pacer (chapters 9 and 10) -/

/-- A record in hand: the journal entry's word, value and range index, and the record's cost (R147). -/
structure ReplayRecord where
  word : WordNo
  value : Word32
  range : Fin 8
  cost : Nat
  deriving DecidableEq, Repr

/-- A channel's step; a record is in hand in CLAIMED and SENT (R147). -/
inductive ChannelStep where
  | waiting
  | claimed (record : ReplayRecord)
  | sent (record : ReplayRecord)
  | adopting
  deriving DecidableEq, Repr

/-- The record of a channel that is not free (R147). -/
structure ChannelUse where
  slot : Slot
  stamp : Nat
  step : ChannelStep
  suspendRequested : Bool
  deriving DecidableEq, Repr

/-- The wait kind of an Admission List entry (R147). -/
inductive WaitKind where
  | fresh
  | resume
  deriving DecidableEq, Repr

/-- An entry of the Admission List (R147). -/
structure ListEntry where
  slot : Slot
  priority : Nat
  stamp : Nat
  wait : WaitKind
  deriving DecidableEq, Repr

/-- The Replay Engine (R147). A free channel is `none`. -/
structure Rpe where
  channels : Vector (Option ChannelUse) 4
  list : List ListEntry
  order : List Slot
  arrival : Nat
  deriving DecidableEq, Repr

/-- The two kinds of claim (R164). -/
inductive ClaimKind where
  | admission
  | record
  deriving DecidableEq, Repr

/-- A standing claim (R162). -/
structure Claim where
  slot : Slot
  priority : Nat
  cost : Nat
  kind : ClaimKind
  deriving DecidableEq, Repr

/-- The Restore Pacer (R162). -/
structure Pacer where
  credit : Nat
  backoff : Nat
  quiet : Timer
  pwarn : Bool
  claims : List Claim
  deriving DecidableEq, Repr

/-! ## The whole block -/

/-- The state of the block. ATTN has no state of its own (R174) and is computed: see `State.attn`. -/
structure State where
  loader : Loader
  pool : Pool
  wqm : Wqm
  port : Port
  slots : Vector SlotState 16
  rpe : Rpe
  pacer : Pacer
  /-- The journal's report of a part-level fault, raised and answered within one event (R24, R172): clear between events. -/
  partFault : Bool
  /-- The commands waiting, the next one first (the model's own field). -/
  pending : List Instr
  deriving DecidableEq, Repr

/-- Why a step could fault. No rule of this manual leaves a command without an effect, so the type has no value: no command
of the model stops this way. -/
inductive Fault where
  deriving DecidableEq, Repr

/-- Why a step could be refused. -/
inductive Refusal where
  /-- Raised by no arm of `exec`: every command has its meaning. It is the host's name for a command not modelled yet
  (safe: the model stops where the part goes on). -/
  | notModelled (mnemonic : String)
  deriving DecidableEq, Repr

/-! ## Reset -/

/-- The parameter block of the fallback profile (R40). -/
def fallbackParams : Params :=
  { criterion := 3, mimicChecking := false, holdOff := 50, absenceLimit := 10000, readyLimit := 1000, baseRate := 1,
    cap := 16, quietInterval := 100 }

/-- The fallback profile (R40). -/
def fallbackProfile : Profile :=
  { params := fallbackParams,
    slots := Vector.replicate 16 { priority := 3, queueLimit := 32, quota := 0, likeReplacement := false },
    kinds := [] }

/-- `count` pool entries from `first` on. -/
def entriesFrom : Nat → Nat → List EntryId
  | 0, _ => []
  | count + 1, first => Fin.ofNat 4096 first :: entriesFrom count (first + 1)

/-- The journal pool entirely free (R8, R25), the free list in the order of the entries' numbers (the model's choice:
notes/assumptions/39.md). -/
def Pool.allFree : Pool :=
  { freeCount := Config.journalPool, freeList := entriesFrom Config.journalPool 0, freeMarks := BitVec.allOnes 4096, keepMap := [] }

/-- All four bits invalid, or no candidate. -/
def StatusBits.invalid : StatusBits := { fresh := none, ready := none, pgood := none, busy := none }

/-- A framer after RST (R83). -/
def Framer.reset : Framer :=
  { state := .search, sightings := [], history := [], lastPosition := none, mimic := false, bits := StatusBits.invalid,
    candidates := StatusBits.invalid, silence := 0, lossDeclared := false, partFrame := false, lossCause := none,
    lastBit := none, frames := [] }

/-- The transaction logic after RST (R100). -/
def Link.reset : Link :=
  { tagCounter := 0, lastWriteTag := none, outstanding := none, setAside := none, pendingRelink := none, unlockOwed := false,
    pendingRead := none, sending := none, lateSends := [] }

/-- A Card Context record after RST (R115). -/
def Card.reset : Card :=
  { state := .empty, bound := none, candidate := none, incomplete := false, nakCount := 0, sinceResume := 0,
    replayStarted := false, attempt := 0, reason := none, expectedRestart := false, wipeOwed := false, adoptPending := false,
    identityOwed := false, refused := false, retired := false, restartWait := false, holdOff := .stopped, absence := .stopped,
    absenceKept := none, ready := .stopped, stability := .stopped }

/-- A slot after RST. -/
def SlotState.reset : SlotState :=
  { framer := Framer.reset, link := Link.reset, card := Card.reset, journal := [], queue := [] }

/-- The Replay Engine after RST (R147). -/
def Rpe.reset : Rpe := { channels := Vector.replicate 4 none, list := [], order := [], arrival := 0 }

/-- The Pacer after RST (R162). -/
def Pacer.reset : Pacer := { credit := 0, backoff := 0, quiet := .stopped, pwarn := false, claims := [] }

/-- The machine right after reset: RST asserted and the mode LOADING (R33), every block as its rule leaves it. The PWARN line
(notes/assumptions/3.md) and the profile fields before publication (notes/assumptions/4.md) are the model's choice. -/
def State.reset : State :=
  { loader := { mode := .loading, rstAsserted := true, scs := false, sent := [], bytes := [], sum := 0, profile := fallbackProfile },
    pool := Pool.allFree,
    wqm := { free := Config.queuePool, nextSeq := 0, lowMark := 0 },
    port := { current := none, lock := none, response := none },
    slots := Vector.replicate 16 SlotState.reset,
    rpe := Rpe.reset,
    pacer := Pacer.reset,
    partFault := false,
    pending := [] }

end Sys2Proof.Machine
end

