-- ==== Sys2Proof/Machine/Ops.lean ====
section
/-!
DEFINITION. The named operations over the state that every block shares: one slot's record, the timers, the bits other blocks
gate on, and the beginning of an event. Taking an exception has no place here: the block has no exception entry.
-/

namespace Sys2Proof.Machine

/-- The sixteen slots in order. -/
def allSlots : List Slot := [0, 1, 2, 3, 4, 5, 6, 7, 8, 9, 10, 11, 12, 13, 14, 15]

/-- The four channels in order (R147). -/
def allChannels : List ChannelNo := [0, 1, 2, 3]

/-! ## One slot -/

/-- The record of slot `n`. -/
def State.slot (s : State) (n : Slot) : SlotState := s.slots[n.val]

/-- Slot `n`'s record changed by `f`, every other slot's as it was. -/
def modSlot (n : Slot) (f : SlotState → SlotState) (s : State) : State :=
  { s with slots := s.slots.set n.val (f (s.slot n)) }

/-- Slot `n`'s Card Context record changed by `f`. -/
def modCard (n : Slot) (f : Card → Card) (s : State) : State :=
  modSlot n (fun x => { x with card := f x.card }) s

/-- Slot `n`'s transaction logic changed by `f`. -/
def modLink (n : Slot) (f : Link → Link) (s : State) : State :=
  modSlot n (fun x => { x with link := f x.link }) s

/-- Slot `n`'s framer changed by `f`. -/
def modFramer (n : Slot) (f : Framer → Framer) (s : State) : State :=
  modSlot n (fun x => { x with framer := f x.framer }) s

/-- Slot `n`'s journal list changed by `f`. -/
def modJournal (n : Slot) (f : List Held → List Held) (s : State) : State :=
  modSlot n (fun x => { x with journal := f x.journal }) s

/-- Slot `n`'s Pending Write Queue changed by `f`. -/
def modQueue (n : Slot) (f : List QEntry → List QEntry) (s : State) : State :=
  modSlot n (fun x => { x with queue := f x.queue }) s

/-! ## What the blocks read of one another -/

/-- The part mode (R33). -/
def State.mode (s : State) : PartMode := s.loader.mode

/-- The published parameter block (R32). -/
def State.params (s : State) : Params := s.loader.profile.params

/-- Slot `n`'s entry of the slot table (R31). -/
def State.slotEntry (s : State) (n : Slot) : SlotEntry := s.loader.profile.slots[n.val]

/-- A link is aligned when its framer is ALIGNED (R83). -/
def State.aligned (s : State) (n : Slot) : Bool :=
  match (s.slot n).framer.state with
  | .search => false
  | .aligned _ _ => true

/-- The debounced bits of slot `n` as they stand (R94). -/
def State.bits (s : State) (n : Slot) : StatusBits := (s.slot n).framer.bits

/-- The debounced READY is 1; an invalid bit is not (R94). -/
def State.readyIsOne (s : State) (n : Slot) : Bool := (s.bits n).ready == some true

/-- The debounced BUSY is 0; an invalid bit is not (R94). -/
def State.busyIsZero (s : State) (n : Slot) : Bool := (s.bits n).busy == some false

/-- The debounced PGOOD is 1; an invalid bit is not (R94). -/
def State.pgoodIsOne (s : State) (n : Slot) : Bool := (s.bits n).pgood == some true

/-- The journal count of slot `n`: the number of entries in its list (R6). -/
def State.journalCount (s : State) (n : Slot) : Nat := (s.slot n).journal.length

/-- The queue depth of slot `n`, an in-flight head included (R60). -/
def State.queueDepth (s : State) (n : Slot) : Nat := (s.slot n).queue.length

/-- The kind table's entry for slot `n`'s bound kind, if there is one (R26, R28). -/
def State.boundKind (s : State) (n : Slot) : Option KindEntry :=
  match (s.slot n).card.bound with
  | none => none
  | some i => s.loader.profile.kinds.find? (fun k => k.code == i.kind)

/-! ## Timers -/

/-- The timer is running. -/
def Timer.isRunning : Timer → Bool
  | .stopped => false
  | .running _ => true

/-- A timer after one REFCLK period, held at its limit. -/
def Timer.advance (limit : Nat) : Timer → Timer
  | .stopped => .stopped
  | .running e => .running (min limit (e + 1))

/-- The value a timer stands at, if it runs. -/
def Timer.value : Timer → Option Nat
  | .stopped => none
  | .running e => some e

/-! ## Events -/

/-- The beginning of an event: the response lines answer nothing yet, and no part-level fault has been reported in it. -/
def beginEvent (s : State) : State :=
  { s with port := { s.port with response := none }, partFault := false }

/-- The port answers the access of this event, or the waiting read (R62). -/
def respond (r : Response) (s : State) : State :=
  { s with port := { s.port with response := some r } }

/-- The journal reports a part-level fault to the Profile Loader (R24). -/
def reportPartFault (s : State) : State := { s with partFault := true }

end Sys2Proof.Machine
end

