-- ==== Sys2Proof/Machine/Operands.lean ====
section
/-!
DEFINITION. The operand forms: the access on the controller's bus (R61), the layouts of section 2.8 (identity word, control
word, link messages), and the bits of the bridge's transmission (R84).
-/

namespace Sys2Proof.Machine

/-! ## Accesses -/

/-- The slot an address names: the byte address divided by 65536 (R61). -/
def slotOf (addr : BusAddr) : Slot := (addr.extractLsb' 16 4).toFin

/-- The word an address names: the remainder divided by 4 (R61). -/
def wordOf (addr : BusAddr) : WordNo := addr.extractLsb' 2 14

/-- The two lowest address lines are both 0 (R61). -/
def isAligned (addr : BusAddr) : Bool := addr.extractLsb' 0 2 == 0

/-- An access as the port takes it. `kind` is `none` for a byte or half-word access (R61). -/
structure Access where
  kind : Option AccessKind
  wordForm : Bool
  slot : Slot
  word : WordNo
  value : Word32
  deriving DecidableEq, Repr

/-- The access that the lines present (R61). -/
def Access.ofLines (kind : Option AccessKind) (addr : BusAddr) (value : Word32) : Access :=
  { kind := kind, wordForm := kind.isSome && isAligned addr, slot := slotOf addr, word := wordOf addr, value := value }

/-- The access kind that carries a control write. -/
def accessKindOf : WriteAccess → AccessKind
  | .write => .write
  | .ordered => .orderedWrite
  | .locked => .lockedWrite

/-- A write of `value` to word 1 of slot `n`'s window. -/
def Access.control (kind : WriteAccess) (n : Slot) (value : Word32) : Access :=
  { kind := some (accessKindOf kind), wordForm := true, slot := n, word := 1, value := value }

/-! ## Words seen from outside (section 2.8) -/

/-- The identity word of an identity. -/
def Identity.toWord (i : Identity) : Word32 := i.kind ++ i.revision ++ i.serial

/-- The identity that an identity word holds. -/
def Identity.ofWord (w : Word32) : Identity :=
  { kind := w.extractLsb' 24 8, revision := w.extractLsb' 16 8, serial := w.extractLsb' 0 16 }

/-- Two identities match when their kind and serial are equal (R128). -/
def Identity.matchesId (a b : Identity) : Bool := a.kind == b.kind && a.serial == b.serial

/-- The command code of a controller's command. -/
def Command.code : Command → Word32
  | .clear => 1
  | .restart => 2
  | .retire => 3
  | .rebase => 4

/-- The command code of ADOPT. -/
def adoptCode : Word32 := 5

/-- The controller's command that a value written to word 1 carries; ADOPT is not one (R66). -/
def commandOf (value : Word32) : Option Command :=
  if value = 1 then some .clear
  else if value = 2 then some .restart
  else if value = 3 then some .retire
  else if value = 4 then some .rebase
  else none

/-! ## Link messages (R41) -/

/-- The kind field of a request. -/
def ReqKind.field : ReqKind → BitVec 2
  | .write => 1
  | .read => 2
  | .unlock => 3

/-- The 57 payload bits of a request, most significant first. -/
def Request.payload (r : Request) : BitVec 57 :=
  r.kind.field ++ BitVec.ofBool r.flag ++ r.tag ++ r.word ++ r.value

/-- The four responses a card can give. -/
inductive RespKind where
  | ack
  | data
  | nak
  | wait
  deriving DecidableEq, Repr

/-- A response taken from a multiframe's payload. -/
structure Resp where
  kind : RespKind
  tag : Tag
  cause : BitVec 2
  value : Word32
  deriving DecidableEq, Repr

/-- The payload bit `i` of a frame whose overhead position is `p`: position order, skipping `p`. -/
def payloadBit (p : Position) (f : RxFrame) (i : Nat) : Bool :=
  if i < p.val then f.getLsbD i else f.getLsbD (i + 1)

/-- The number in the `len` payload bits from `start` on, most significant first. -/
def payloadField (p : Position) (f : RxFrame) (start : Nat) : Nat → Nat
  | 0 => 0
  | len + 1 => 2 * payloadField p f start len + (payloadBit p f (start + len)).toNat

/-- The kind that a response's kind field names; 0 is no message, and 5, 6 and 7 are taken as no message. -/
def RespKind.ofField (k : Nat) : Option RespKind :=
  if k = 1 then some .ack else if k = 2 then some .data else if k = 3 then some .nak else if k = 4 then some .wait else none

/-- The response carried by a multiframe, read from its frame 0. -/
def Resp.ofFrame (p : Position) (f : RxFrame) : Option Resp :=
  match RespKind.ofField (payloadField p f 0 3) with
  | none => none
  | some k =>
    some { kind := k, tag := BitVec.ofNat 8 (payloadField p f 3 8), cause := BitVec.ofNat 2 (payloadField p f 11 2),
           value := BitVec.ofNat 32 (payloadField p f 13 32) }

/-- The response kinds that fit a request (R105). -/
def RespKind.fits : RespKind → ReqKind → Bool
  | .ack, .write => true
  | .ack, .read => false
  | .ack, .unlock => true
  | .data, .write => false
  | .data, .read => true
  | .data, .unlock => false
  | .nak, .write => true
  | .nak, .read => true
  | .nak, .unlock => true
  | .wait, .write => true
  | .wait, .read => true
  | .wait, .unlock => true

/-! ## The bridge's transmission (R84) -/

/-- The alignment word, 1 1 0 1 0 0 1 0, carried by the even frames in that order. -/
def alignmentBit (k : Nat) : Bool := k == 0 || k == 1 || k == 3 || k == 6

/-- The bit sent to slot `n` at position `p` of frame `k` of a multiframe: overhead at position 0, then the request in the
payload of frame 0; while the mode is LOADING an unbroken alternation of ones and zeros, its ones at the even
positions (the model's choice: notes/assumptions/30.md). -/
def State.transmittedBit (s : State) (n : Slot) (k : Fin 16) (p : Position) : Bool :=
  match s.mode with
  | .loading => p.val % 2 == 0
  | _ =>
    if p.val = 0 then
      if k.val % 2 = 0 then alignmentBit (k.val / 2) else false
    else if k.val = 0 then
      match (s.slot n).link.sending with
      | none => false
      | some r => r.payload.getMsbD (p.val - 1)
    else false

end Sys2Proof.Machine
end

