-- ==== Sys2Proof/Machine/Flags.lean ====
section
/-!
DEFINITION. The computed flags and words: an entry's parity (R3), the class of a word (R26), the bridge status word (R68), the
attention line (R174), and a card being held back (R117).
-/

namespace Sys2Proof.Machine

/-! ## Parity (R3) -/

/-- The lowest `k` bits of `x` hold an odd number of ones. -/
def oddOnes : Nat → Nat → Bool
  | 0, _ => false
  | k + 1, x => x.testBit k ^^ oddOnes k x

/-- One bit for the class of an entry, KEEP 0 and SEQUENCE 1: the model's choice (notes/assumptions/29.md). -/
def EntryClass.bit : EntryClass → Bool
  | .keep => false
  | .sequence => true

/-- One bit for the state of an entry, CONFIRMED 0 and STALE 1: the model's choice (notes/assumptions/29.md). -/
def EntryState.bit : EntryState → Bool
  | .confirmed => false
  | .stale => true

/-- The other state of an entry. -/
def EntryState.other : EntryState → EntryState
  | .confirmed => .stale
  | .stale => .confirmed

/-- The fields of an entry other than its check bit hold an odd number of ones. -/
def JEntry.fieldsOdd (e : JEntry) : Bool :=
  oddOnes 4 e.owner.val ^^ oddOnes 14 e.word.toNat ^^ oddOnes 32 e.value.toNat ^^ oddOnes 3 e.range.val ^^ e.cls.bit ^^ e.state.bit

/-- An entry has a parity error when its stored fields, check bit included, hold an odd number of ones (R23). -/
def JEntry.parityError (e : JEntry) : Bool := e.fieldsOdd ^^ e.check

/-- The check bit written so that the entry holds an even number of ones (R3). -/
def JEntry.withCheck (e : JEntry) : JEntry := { e with check := e.fieldsOdd }

/-- A change of the state field inverts the check bit with it (R3). -/
def JEntry.flip (e : JEntry) : JEntry := { e with state := e.state.other, check := !e.check }

/-- An entry as it is allocated: CONFIRMED, its check bit written (R2, R3). -/
def JEntry.fresh (n : Slot) (w : WordNo) (v : Word32) (ix : Fin 8) (c : EntryClass) : JEntry :=
  JEntry.withCheck { owner := n, word := w, value := v, range := ix, cls := c, state := .confirmed, check := false }

/-- A KEEP entry rewritten: the acknowledged value, CONFIRMED, the check bit recomputed (R11). -/
def JEntry.rewritten (e : JEntry) (v : Word32) : JEntry :=
  JEntry.withCheck { e with value := v, state := .confirmed }

/-! ## Classes (R26) -/

/-- A range contains a word (R29). -/
def WordRange.covers (r : WordRange) (w : WordNo) : Bool := r.first ≤ w.toNat && w.toNat ≤ r.last

/-- The first range of a list that contains a word, with its index counted from `ix`. -/
def findRange (w : WordNo) : Nat → List WordRange → Option (Fin 8 × WordRange)
  | _, [] => none
  | ix, r :: rest => if r.covers w then some (Fin.ofNat 8 ix, r) else findRange w (ix + 1) rest

/-- The range of slot `n`'s bound kind that contains a word, with its range index. -/
def State.rangeOf (s : State) (n : Slot) (w : WordNo) : Option (Fin 8 × WordRange) :=
  match s.boundKind n with
  | none => none
  | some k => findRange w 0 k.ranges

/-- The class of a store word of slot `n` (R26). -/
def State.classOf (s : State) (n : Slot) (w : WordNo) : RangeClass :=
  match s.mode with
  | .unprotected => .live
  | _ =>
    match s.rangeOf n w with
    | none => .live
    | some (_, r) => r.cls

/-! ## The bridge status word (section 2.8, R68) -/

/-- The card state code. -/
def CardState.code : CardState → BitVec 4
  | .empty => 0
  | .inService => 1
  | .lossHold => 2
  | .down => 3
  | .identify => 4
  | .admitWait => 5
  | .replaying => 6
  | .suspended => 7
  | .quarantined => 8

/-- The code of a quarantine reason. -/
def Reason.code : Reason → BitVec 3
  | .absent => 1
  | .mismatch => 2
  | .incomplete => 3
  | .journalError => 4
  | .unstable => 5
  | .unresponsive => 6

/-- The quarantine reason field: the reason while the card is QUARANTINED, otherwise 7 while the framer holds its mimic
indication, or 0. -/
def SlotState.reasonField (x : SlotState) : BitVec 3 :=
  if x.card.state = .quarantined then
    match x.card.reason with
    | none => 0
    | some r => r.code
  else if x.framer.mimic then 7 else 0

/-- The bridge status word of slot `n`, composed from the state as it stands (R68, R175). -/
def State.statusWord (s : State) (n : Slot) : Word32 :=
  (s.slot n).card.state.code ++ (s.slot n).reasonField ++ BitVec.ofNat 2 (s.slot n).card.attempt
    ++ BitVec.ofBool (s.slot n).card.incomplete ++ BitVec.ofBool (s.mode == .unprotected)
    ++ BitVec.ofBool (s.slot n).card.refused ++ BitVec.ofNat 13 (s.journalCount n) ++ BitVec.ofNat 7 (s.queueDepth n)

/-- The identity word the bridge answers: the bound identity, or 0 (R65). -/
def State.identityWord (s : State) (n : Slot) : Word32 :=
  match (s.slot n).card.bound with
  | none => 0
  | some i => i.toWord

/-! ## The attention line (R174) -/

/-- ATTN: a card is QUARANTINED, a card's journal is INCOMPLETE, or the part mode is UNPROTECTED. -/
def State.attn (s : State) : Bool :=
  s.mode == .unprotected ||
    allSlots.any (fun n => (s.slot n).card.state == .quarantined || (s.slot n).card.incomplete)

/-! ## Holding back (R117) -/

/-- The card is in the Replay Engine's keeping (section 9.1). -/
def CardState.inKeeping : CardState → Bool
  | .admitWait => true
  | .replaying => true
  | .suspended => true
  | _ => false

/-- The seven states in which a card's ready timer may run. -/
def CardState.readyTimed : CardState → Bool
  | .lossHold => false
  | .quarantined => false
  | _ => true

/-- Card `n` is held back: READY not 1, BUSY not 0, or, in the Replay Engine's keeping, PGOOD not 1. -/
def State.heldBack (s : State) (n : Slot) : Bool :=
  !s.readyIsOne n || !s.busyIsZero n || ((s.slot n).card.state.inKeeping && !s.pgoodIsOne n)

/-- All that makes the ready timer run: the state, an aligned link, and the card held back or in the restart wait of R126. The
retired mark keeps the timer of an EMPTY slot from starting (R141). -/
def State.readyTimerDue (s : State) (n : Slot) : Bool :=
  (s.slot n).card.state.readyTimed && s.aligned n &&
    (s.heldBack n || ((s.slot n).card.state == .down && (s.slot n).card.restartWait)) &&
    !((s.slot n).card.state == .empty && (s.slot n).card.retired)

end Sys2Proof.Machine
end

