-- ==== Sys2Proof/Machine/Profile.lean ====
section
/-!
DEFINITION. The profile image: its layout (section 2.8), the checks of R35 and R36, the clamping of R37 and the publication of
a profile (R39, R40).
-/

namespace Sys2Proof.Machine

/-- The byte of the image at an offset. -/
def imageByte (img : List Byte) (i : Nat) : Nat := (img[i]?.getD 0).toNat

/-- The two-byte field of the image at an offset, most significant byte first. -/
def imageHalf (img : List Byte) (i : Nat) : Nat := 256 * imageByte img i + imageByte img (i + 1)

/-- The bytes of a list added, each as a number 0 to 255. -/
def byteSum : List Byte → Nat
  | [] => 0
  | b :: rest => b.toNat + byteSum rest

/-- The format code and the length of a header are good (R35). -/
def headerGood (header : List Byte) : Bool :=
  imageHalf header 0 == Config.formatCode && Config.minImage ≤ imageHalf header 2 && imageHalf header 2 ≤ Config.maxImage

/-- The sum over every byte but bytes 4 and 5 agrees with the sum field (R35). -/
def sumGood (img : List Byte) (sum : Nat) : Bool := sum % 65536 == imageHalf img 4

/-- The class that bits 7 and 6 of a range descriptor's byte 4 name. -/
def rangeClassOf (b : Byte) : RangeClass :=
  match (b.extractLsb' 6 2).toNat with
  | 0 => .keep
  | 1 => .sequence
  | 2 => .live
  | _ => .barred

/-- The truncate field: 0 means none. -/
def truncateField (t : Nat) : Option Nat := if t = 0 then none else some t

/-- Reads `count` range descriptors of 7 bytes; `none` where the bytes run out. -/
def parseRanges : Nat → List Byte → Option (List WordRange × List Byte)
  | 0, bytes => some ([], bytes)
  | count + 1, a :: b :: c :: d :: e :: f :: g :: rest =>
    match parseRanges count rest with
    | none => none
    | some (more, left) =>
      some ({ first := 256 * a.toNat + b.toNat, last := 256 * c.toNat + d.toNat, cls := rangeClassOf e,
              weight := (e.extractLsb' 0 4).toNat, truncate := truncateField (256 * f.toNat + g.toNat) } :: more, left)
  | _ + 1, _ => none

/-- Reads `count` kind entries that end exactly at the end of the bytes; `none` otherwise, or where a range count is greater
than 8 (R36). -/
def parseKinds : Nat → List Byte → Option (List KindEntry)
  | 0, [] => some []
  | 0, _ :: _ => none
  | count + 1, code :: weight :: ranges :: rest =>
    if 8 < ranges.toNat then none
    else
      match parseRanges ranges.toNat rest with
      | none => none
      | some (rs, left) =>
        match parseKinds count left with
        | none => none
        | some more => some ({ code := code, admissionWeight := weight.toNat, ranges := rs } :: more)
  | _ + 1, _ => none

/-- A range's own checks (R36). -/
def WordRange.valid (r : WordRange) : Bool :=
  r.first ≤ r.last && 4 ≤ r.first && r.last ≤ 16383 &&
    match r.truncate with
    | none => true
    | some t => r.cls == .sequence && r.first ≤ t && t ≤ r.last

/-- Two ranges share no word (R36). -/
def WordRange.apart (a b : WordRange) : Bool := a.last < b.first || b.last < a.first

/-- No two ranges of a list share a word. -/
def rangesApart : List WordRange → Bool
  | [] => true
  | r :: rest => rest.all (fun x => r.apart x) && rangesApart rest

/-- No two kind entries have the same code (R36). -/
def codesDiffer : List KindEntry → Bool
  | [] => true
  | k :: rest => rest.all (fun x => x.code != k.code) && codesDiffer rest

/-- The kind table's checks (R36). -/
def kindsValid (ks : List KindEntry) : Bool :=
  codesDiffer ks && ks.all (fun k => k.ranges.all WordRange.valid && rangesApart k.ranges)

/-- A value brought into a range (R37). -/
def clamp (lo hi v : Nat) : Nat := max lo (min hi v)

/-- The parameter block of an image, clamped (R37, R38). -/
def paramsOf (img : List Byte) : Params :=
  { criterion := clamp 2 4 (imageByte img 6),
    mimicChecking := imageByte img 7 != 0,
    holdOff := clamp 5 200 (imageHalf img 8),
    absenceLimit := clamp 1000 60000 (imageHalf img 10),
    readyLimit := clamp 100 2000 (imageHalf img 12),
    baseRate := clamp 1 1023 (imageHalf img 14),
    cap := clamp 16 16383 (imageHalf img 16),
    quietInterval := clamp 100 10000 (imageHalf img 18) }

/-- The slot table's entry of a slot, clamped (R37, R38). -/
def slotEntryOf (img : List Byte) (n : Nat) : SlotEntry :=
  { priority := clamp 0 3 (imageByte img (20 + 4 * n) % 8),
    queueLimit := clamp 1 64 (imageByte img (21 + 4 * n)),
    quota := imageHalf img (22 + 4 * n),
    likeReplacement := (imageByte img (20 + 4 * n)).testBit 7 }

/-- The slot table of an image. -/
def slotTableOf (img : List Byte) : Vector SlotEntry 16 := Vector.ofFn (fun n : Fin 16 => slotEntryOf img n.val)

/-- The sum of the sixteen journal quotas (R36). -/
def quotaSum (img : List Byte) : Nat := (allSlots.map (fun n => imageHalf img (22 + 4 * n.val))).sum

/-- The profile that an image holds, if the image passes R35 and R36; `sum` is the Loader's running sum. -/
def profileOf (img : List Byte) (sum : Nat) : Option Profile :=
  if headerGood img && sumGood img sum && imageByte img 84 ≤ 16 && quotaSum img ≤ Config.journalPool then
    match parseKinds (imageByte img 84) (img.drop 85) with
    | none => none
    | some ks => if kindsValid ks then some { params := paramsOf img, slots := slotTableOf img, kinds := ks } else none
  else none

/-- A profile is published to every block in one event: the mode leaves LOADING and the read is over; the Pacer stands at credit
0, backoff level 0, its quiet timer stopped and no claim, its PWARN condition as the line is (R39, R40, R162). The links and the
Relink Controller start from the state that RST left. -/
def publish (mode : PartMode) (p : Profile) (s : State) : State :=
  { s with
    loader := { s.loader with mode := mode, scs := false, profile := p }
    pacer := { Pacer.reset with pwarn := s.pacer.pwarn } }

/-- The outcome of a finished read: the profile, or the fallback profile in UNPROTECTED mode (R39, R40). -/
def publishOutcome (p : Option Profile) (s : State) : State :=
  match p with
  | some p => publish .normal p s
  | none => publish .unprotected fallbackProfile s

end Sys2Proof.Machine
end

