-- ==== Sys2Proof/Machine/Journal.lean ====
section
/-!
DEFINITION. The Restore Journal (chapter 1): the pool with its bookkeeping checks, recording, INCOMPLETE, staling, the replay
read, confirmation, refusal and the shadow lookup.
-/

namespace Sys2Proof.Machine

/-! ## The pool (R1, R24) -/

/-- The free mark of an entry. -/
def Pool.isFree (p : Pool) (i : EntryId) : Bool := p.freeMarks.getLsbD i.val

/-- The free marks with that of `i` cleared. -/
def Pool.unmarked (p : Pool) (i : EntryId) : BitVec 4096 := p.freeMarks &&& ~~~(1#4096 <<< i.val)

/-- The free marks with that of `i` set. -/
def Pool.marked (p : Pool) (i : EntryId) : BitVec 4096 := p.freeMarks ||| (1#4096 <<< i.val)

/-- An entry is allocated to slot `n`'s list, at its tail (R1). A bookkeeping error leaves the operation undone and reports a
part-level fault (R24). -/
def journalAlloc (n : Slot) (e : JEntry) (s : State) : State :=
  if s.partFault then s
  else
    match s.pool.freeList with
    | [] => reportPartFault s
    | i :: rest =>
      if s.pool.freeCount = 0 ∨ s.pool.isFree i = false then reportPartFault s
      else
        modJournal n (fun l => l ++ [{ id := i, entry := e }])
          { s with pool :=
              { freeCount := s.pool.freeCount - 1, freeList := rest, freeMarks := s.pool.unmarked i,
                keepMap := if e.cls = .keep then s.pool.keepMap ++ [{ slot := n, word := e.word, id := i }] else s.pool.keepMap } }

/-- An entry of slot `n`'s list is freed (R1). A bookkeeping error leaves it as it was and reports a part-level fault (R24). -/
def journalFreeOne (n : Slot) (h : Held) (s : State) : State :=
  if s.partFault then s
  else if s.pool.isFree h.id ∨ s.pool.freeCount = Config.journalPool then reportPartFault s
  else
    modJournal n (fun l => l.filter (fun x => x.id != h.id))
      { s with pool :=
          { freeCount := s.pool.freeCount + 1, freeList := s.pool.freeList ++ [h.id], freeMarks := s.pool.marked h.id,
            keepMap := s.pool.keepMap.filter (fun k => k.id != h.id) } }

/-- Entries freed one after another, the first first. -/
def journalFreeAll (n : Slot) : List Held → State → State
  | [], s => s
  | h :: rest, s => journalFreeAll n rest (journalFreeOne n h s)

/-- The replay fields of a card's record set to 0 or clear (R7). -/
def Card.noReplay (c : Card) : Card := { c with nakCount := 0, sinceResume := 0, replayStarted := false }

/-- Slot `n`'s journal is freed, oldest entry first, with its replay fields (R1, R7). -/
def journalFree (n : Slot) (s : State) : State :=
  modCard n Card.noReplay (journalFreeAll n (s.slot n).journal s)

/-- Slot `n`'s journal is freed and its INCOMPLETE flag cleared (R16, R17). -/
def journalRestart (n : Slot) (s : State) : State :=
  modCard n (fun c => { c with incomplete := false }) (journalFree n s)

/-- Slot `n`'s journal becomes INCOMPLETE (R15); not in UNPROTECTED mode (R25). -/
def makeIncomplete (n : Slot) (s : State) : State :=
  if s.mode ≠ .normal ∨ (s.slot n).card.incomplete then s
  else journalFree n (modCard n (fun c => { c with incomplete := true }) s)

/-! ## Lookups (R5, R22) -/

/-- The entry that the KEEP lookup map gives for a slot and a word. -/
def State.keepEntry (s : State) (n : Slot) (w : WordNo) : Option Held :=
  match s.pool.keepMap.find? (fun k => k.slot == n && k.word == w) with
  | none => none
  | some k => (s.slot n).journal.find? (fun h => h.id == k.id)

/-- The oldest STALE entry of slot `n`'s list (R19). -/
def State.oldestStale (s : State) (n : Slot) : Option Held :=
  (s.slot n).journal.find? (fun h => h.entry.state == .stale)

/-! ## Recording (R9 to R13) -/

/-- A new entry at the tail if the count is below the quota; otherwise the journal becomes INCOMPLETE (R11, R12). -/
def appendEntry (n : Slot) (e : JEntry) (s : State) : State :=
  if s.journalCount n < (s.slotEntry n).quota then journalAlloc n e s else makeIncomplete n s

/-- An acknowledged KEEP write is recorded (R11); a parity error in the entry it finds makes the journal INCOMPLETE (R23). -/
def recordKeep (n : Slot) (w : WordNo) (v : Word32) (ix : Fin 8) (s : State) : State :=
  match s.keepEntry n w with
  | none => appendEntry n (JEntry.fresh n w v ix .keep) s
  | some h =>
    if h.entry.parityError then makeIncomplete n s
    else modJournal n (fun l => l.filter (fun x => x.id != h.id) ++ [{ h with entry := h.entry.rewritten v }]) s

/-- An acknowledged SEQUENCE write is recorded (R12); its range's truncate word first frees the range's entries (R13), the oldest
first: the rule gives no order, and that order, in which they join the free list, is the model's choice
(notes/assumptions/39.md). -/
def recordSequence (n : Slot) (w : WordNo) (v : Word32) (ix : Fin 8) (r : WordRange) (s : State) : State :=
  appendEntry n (JEntry.fresh n w v ix .sequence)
    (if r.truncate = some w.toNat then
      journalFreeAll n ((s.slot n).journal.filter (fun h => h.entry.range == ix)) s
     else s)

/-- A store write that the card has acknowledged is recorded or not, by the class its queue entry holds (R9, R10). -/
def recordWrite (n : Slot) (q : QEntry) (s : State) : State :=
  if s.mode ≠ .normal ∨ (s.slot n).card.state ≠ .inService ∨ (s.slot n).card.incomplete then s
  else
    match q.cls, s.rangeOf n q.word with
    | some .keep, some (ix, _) => recordKeep n q.word q.value ix s
    | some .sequence, some (ix, r) => recordSequence n q.word q.value ix r s
    | _, _ => s

/-! ## Staling and replay (R17 to R21) -/

/-- A journal element marked STALE, its check bit inverted if its state changes (R3, R18). -/
def Held.stale (h : Held) : Held :=
  if h.entry.state = .stale then h else { h with entry := h.entry.flip }

/-- Every entry of slot `n`'s list is marked STALE; the order is kept (R17, R18). -/
def markStale (n : Slot) (s : State) : State := modJournal n (fun l => l.map Held.stale) s

/-- Staling at an identification (R18). -/
def staleJournal (n : Slot) (s : State) : State := modCard n Card.noReplay (markStale n s)

/-- The first STALE element of a list becomes CONFIRMED (R20). -/
def confirmFirst : List Held → List Held
  | [] => []
  | h :: rest => if h.entry.state = .stale then { h with entry := h.entry.flip } :: rest else h :: confirmFirst rest

/-- The card has acknowledged a replay record (R20). -/
def confirmRecord (n : Slot) (s : State) : State :=
  modCard n (fun c => { c with sinceResume := c.sinceResume + 1, replayStarted := true }) (modJournal n confirmFirst s)

/-- The card has refused a replay record: its entry is freed and the refusal counted (R21). -/
def refuseRecord (n : Slot) (s : State) : State :=
  modCard n (fun c => { c with nakCount := min Config.replayNakLimit (c.nakCount + 1) })
    (match s.oldestStale n with
     | none => s
     | some h => journalFreeOne n h s)

/-! ## UNPROTECTED (R25) -/

/-- A slot's journal list and journal fields as the wholesale freeing leaves them. -/
def SlotState.unjournalled (x : SlotState) : SlotState :=
  { x with journal := [], card := { x.card.noReplay with incomplete := false } }

/-- The journal frees itself wholesale (R25). -/
def journalWipe (s : State) : State :=
  { s with pool := Pool.allFree, slots := s.slots.map SlotState.unjournalled }

end Sys2Proof.Machine
end

