-- ==== Sys2Proof/Machine/Queue.lean ====
section
/-!
DEFINITION. The Pending Write Queues (chapter 3): acceptance, retirement, discarding, the low mark, and which head may be
dispatched.
-/

namespace Sys2Proof.Machine

/-! ## Order (R45, R47) -/

/-- Number `a` is earlier than number `b` (R45). -/
def earlier (a b : Seq) : Bool := 1 ≤ (b - a).toNat && (b - a).toNat ≤ 32767

/-- The earliest of some sequence numbers, by R45's comparison whatever their distance (notes/assumptions/41.md). -/
def earliest : List Seq → Option Seq
  | [] => none
  | x :: rest =>
    match earliest rest with
    | none => some x
    | some y => if earlier y x then some y else some x

/-- The numbers of the sixteen head entries. -/
def State.headNumbers (s : State) : List Seq :=
  allSlots.filterMap (fun n => (s.slot n).queue.head?.map (fun q => q.seq))

/-- The low mark computed anew (R47). -/
def updateLowMark (s : State) : State :=
  { s with wqm := { s.wqm with lowMark := (earliest s.headNumbers).getD s.wqm.nextSeq } }

/-! ## Acceptance (R44) -/

/-- Slot `n`'s queue is below its limit and the pool has a free entry. -/
def State.hasRoom (s : State) (n : Slot) : Bool :=
  s.queueDepth n < (s.slotEntry n).queueLimit && 0 < s.wqm.free

/-- A write is accepted: it takes a pool entry and the next sequence number, and joins at the tail. -/
def acceptWrite (n : Slot) (w : WordNo) (v : Word32) (kind : WriteKind) (cls : Option RangeClass) (s : State) : State :=
  modQueue n (fun q => q ++ [{ seq := s.wqm.nextSeq, word := w, value := v, kind := kind, cls := cls, tag := none }])
    { s with wqm := { s.wqm with free := s.wqm.free - 1, nextSeq := s.wqm.nextSeq + 1 } }

/-! ## Retirement (R46) -/

/-- The head of slot `n`'s queue is retired. -/
def retireHead (n : Slot) (s : State) : State :=
  match (s.slot n).queue with
  | [] => s
  | _ :: rest =>
    updateLowMark (modQueue n (fun _ => rest) { s with wqm := { s.wqm with free := s.wqm.free + 1 } })

/-- The queue head's transaction is abandoned: dropped from the link, outstanding or set aside, and the entry's in-flight flag
cleared (R55, R114). -/
def abandonHead (n : Slot) (s : State) : State :=
  modSlot n (fun x =>
    { x with
      link := { x.link with
        outstanding := x.link.outstanding.filter (fun t => t.source != .queueHead)
        setAside := none }
      queue := x.queue.map (fun q => { q with tag := none }) }) s

/-- Every entry of slot `n`'s queue is retired DISCARDED, oldest first, an in-flight head's transaction abandoned with it, and
the low mark is computed once (R57). -/
def discardQueue (n : Slot) (s : State) : State :=
  match (s.slot n).queue with
  | [] => s
  | q :: rest =>
    updateLowMark (modQueue n (fun _ => []) { abandonHead n s with
      wqm := { s.wqm with free := s.wqm.free + (q :: rest).length } })

/-! ## Dispatch (R49, R50) -/

/-- No lock is open on card `n`. -/
def State.unlocked (s : State) (n : Slot) : Bool :=
  match s.port.lock with
  | none => true
  | some l => l.slot != n

/-- A CLEAR or RETIRE (R58). -/
def WriteKind.endsQuarantine : WriteKind → Bool
  | .control .clear => true
  | .control .retire => true
  | _ => false

/-- Slot `n`'s head may be dispatched, as far as the queue decides: R49 but for READY and BUSY, which the link checks, and
R50. -/
def State.headMayGo (s : State) (n : Slot) (q : QEntry) : Bool :=
  ((s.slot n).card.state == .inService || ((s.slot n).card.state == .quarantined && q.kind.endsQuarantine)) &&
    s.unlocked n && !(s.slot n).card.adoptPending && q.tag.isNone &&
    (q.kind != .ordered || q.seq == s.wqm.lowMark)

/-- The newest queued write to a word (R59). -/
def State.newestQueued (s : State) (n : Slot) (w : WordNo) : Option Word32 :=
  ((s.slot n).queue.reverse.find? (fun q => q.word == w)).map (fun q => q.value)

end Sys2Proof.Machine
end

