-- ==== Sys2Proof/Machine/Transactions.lean ====
section
/-!
DEFINITION. The transaction logic of the Slot Link Units (chapter 6): tags, starting a request by the dispatcher's order,
resends, suspension, setting aside, resumption and abandonment.
-/

namespace Sys2Proof.Machine

/-! ## Tags (R101) -/

/-- The counter after a new request has taken its tag: one more, passing over the last write tag. -/
def nextTagCounter (counter : Tag) (lastWrite : Option Tag) : Tag :=
  if lastWrite = some (counter + 1) then counter + 2 else counter + 1

/-! ## Transactions as records (R100) -/

/-- A transaction as it is started: ACTIVE, one send, waiting for the next multiframe (R102). -/
def Txn.start (req : Request) (source : Source) : Txn :=
  { req := req, source := source, active := true, sends := 1, sendDue := true, response := .stopped, wait := .stopped,
    commit := .stopped }

/-- A transaction SUSPENDED: its timers stopped, its send count 0, nothing sent (R111). -/
def Txn.suspend (t : Txn) : Txn :=
  { t with active := false, sends := 0, sendDue := false, response := .stopped, wait := .stopped, commit := .stopped }

/-- A transaction resumed: ACTIVE, resent with its tag with a send count of 1, its commit timer stopped (R112). -/
def Txn.resume (t : Txn) : Txn :=
  { t with active := true, sends := 1, sendDue := true, response := .stopped, wait := .stopped, commit := .stopped }

/-- The transaction's request placed in a multiframe: its response timer starts (R102). -/
def Txn.placed (t : Txn) : Txn := { t with sendDue := false, response := .running 0 }

/-- A resend after the response timer's expiry (R107). -/
def Txn.resend (t : Txn) : Txn := { t with sends := t.sends + 1, sendDue := true, response := .stopped }

/-- A timer started if it is stopped. -/
def Timer.startIfStopped : Timer → Timer
  | .stopped => .running 0
  | .running e => .running e

/-- A WAIT taken as the answer (R108). A resend still waiting for its multiframe is made all the same (R109;
notes/assumptions/12.md). -/
def Txn.waited (t : Txn) : Txn :=
  { t with sends := 0, response := .stopped, wait := .running 0, commit := t.commit.startIfStopped }

/-- The resend at the WAIT timer's expiry (R108). -/
def Txn.resendAfterWait (t : Txn) : Txn :=
  { t with sends := 1, sendDue := true, wait := .stopped, response := .stopped }

/-- The source is a relink request. -/
def Source.isRelink : Source → Bool
  | .relink _ => true
  | _ => false

/-! ## Handing over and taking back -/

/-- A relink request is handed over (R103). -/
def handOver (n : Slot) (what : RelinkKind) (forced : Bool) (s : State) : State :=
  modLink n (fun l => { l with pendingRelink := some { what := what, forced := forced } }) s

/-- A relink request of the slot is pending or outstanding. -/
def State.relinkBusy (s : State) (n : Slot) : Bool :=
  (s.slot n).link.pendingRelink.isSome || (s.slot n).link.outstanding.any (fun t => t.source.isRelink)

/-- The relink request handed over and not yet started is withdrawn, and one outstanding is abandoned (R116). -/
def withdrawRelink (n : Slot) (s : State) : State :=
  modLink n (fun l =>
    { l with pendingRelink := none, outstanding := l.outstanding.filter (fun t => !t.source.isRelink) }) s

/-- UNLOCK is asked for on slot `n`'s link: the flag stays as it is if an UNLOCK is already outstanding (R104). -/
def askUnlock (n : Slot) (s : State) : State :=
  modLink n (fun l =>
    { l with unlockOwed := l.unlockOwed || !(l.outstanding.any (fun t => t.source == .unlock)) }) s

/-- UNLOCK is asked for if the link is aligned (R78, R81). -/
def askUnlockIfAligned (n : Slot) (s : State) : State := if s.aligned n then askUnlock n s else s

/-- The outstanding transaction, whatever its source, and a set-aside one are abandoned; the head is no longer in flight
(R55, R114). -/
def abandonAll (n : Slot) (s : State) : State :=
  modLink n (fun l => { l with outstanding := none }) (abandonHead n s)

/-- A transaction cut off (R111): a queue head becomes SUSPENDED; a read, a relink request and, with `andUnlock`, an UNLOCK are
abandoned. -/
def cutOff (andUnlock : Bool) (t : Txn) : Option Txn :=
  match t.source with
  | .queueHead => some t.suspend
  | .unlock => if andUnlock then none else some t
  | .read => none
  | .relink _ => none

/-- The link's outstanding transaction is cut off. -/
def cutOffOutstanding (n : Slot) (andUnlock : Bool) (s : State) : State :=
  modLink n (fun l => { l with outstanding := l.outstanding.bind (cutOff andUnlock) }) s

/-- A SUSPENDED transaction of the queue head is set aside (R113). -/
def setAsideSuspended (n : Slot) (s : State) : State :=
  modLink n (fun l =>
    match l.outstanding with
    | some t => if t.active then l else { l with outstanding := none, setAside := some t }
    | none => l) s

/-- The SUSPENDED or set-aside transaction of the queue head is resumed (R112, R113). -/
def resumeHead (n : Slot) (s : State) : State :=
  modLink n (fun l =>
    match l.setAside, l.outstanding with
    | some t, _ => { l with outstanding := some t.resume, setAside := none }
    | none, some t => if t.active then l else { l with outstanding := some t.resume }
    | none, none => l) s

/-! ## Starting a request (R102, R103) -/

/-- A new request takes the link's next tag and becomes the outstanding transaction. -/
def startRequest (n : Slot) (kind : ReqKind) (flag : Bool) (w : WordNo) (v : Word32) (source : Source) (s : State) : State :=
  modLink n (fun l =>
    { l with
      tagCounter := nextTagCounter l.tagCounter l.lastWriteTag
      lastWriteTag := if kind = .write then some l.tagCounter else l.lastWriteTag
      outstanding := some (Txn.start { kind := kind, flag := flag, tag := l.tagCounter, word := w, value := v } source) }) s

/-- The owed UNLOCK is sent and the flag cleared. -/
def startUnlock (n : Slot) (s : State) : State :=
  startRequest n .unlock false 0 0 .unlock (modLink n (fun l => { l with unlockOwed := false }) s)

/-- The pending relink request is started. -/
def startRelink (n : Slot) (r : RelinkReq) (s : State) : State :=
  let s := modLink n (fun l => { l with pendingRelink := none }) s
  match r.what with
  | .identity => startRequest n .read false 0 0 (.relink r) s
  | .restart => startRequest n .write false 1 Command.restart.code (.relink r) s
  | .adopt => startRequest n .write false 1 adoptCode (.relink r) s
  | .record w v => startRequest n .write false w v (.relink r) s

/-- The port's pending read is started. -/
def startRead (n : Slot) (r : PendingRead) (s : State) : State :=
  startRequest n .read r.lockFlag r.word 0 .read (modLink n (fun l => { l with pendingRead := none }) s)

/-- The queue head is sent as a WRITE and its in-flight flag set with the tag (R51). -/
def startHead (n : Slot) (q : QEntry) (s : State) : State :=
  startRequest n .write (q.kind == .locked) q.word q.value .queueHead
    (modQueue n (fun l =>
      match l with
      | [] => []
      | h :: rest => { h with tag := some (s.slot n).link.tagCounter } :: rest) s)

/-- The transaction logic of slot `n` starts the first request that is present and may go, in the order UNLOCK, relink request,
pending read, queue head. While READY is not 1 or BUSY not 0 only a forced relink request starts. -/
def dispatch (n : Slot) (s : State) : State :=
  if !s.aligned n || (s.slot n).link.outstanding.isSome then s
  else if s.readyIsOne n && s.busyIsZero n then
    if (s.slot n).link.unlockOwed then startUnlock n s
    else
      match (s.slot n).link.pendingRelink, (s.slot n).link.pendingRead, (s.slot n).queue with
      | some r, _, _ => startRelink n r s
      | none, some r, _ => startRead n r s
      | none, none, q :: _ => if s.headMayGo n q then startHead n q s else s
      | none, none, [] => s
  else
    match (s.slot n).link.pendingRelink with
    | some r => if r.forced then startRelink n r s else s
    | none => s

/-- Every link's dispatcher considers its next request, slot 0 first. -/
def dispatchAll (s : State) : State := allSlots.foldl (fun s n => dispatch n s) s

end Sys2Proof.Machine
end

