-- ==== Sys2Proof/Machine/Replay.lean ====
section
/-!
DEFINITION. The Replay Engine's channels and Admission List and the Pacer's claims as data (chapters 9 and 10): joining,
release, the victim of preemption, and the cost and rank of claims.
-/

namespace Sys2Proof.Machine

/-! ## Channels -/

/-- The record of channel `c`; `none` is free. -/
def State.channel (s : State) (c : ChannelNo) : Option ChannelUse := s.rpe.channels[c.val]

/-- Channel `c`'s record replaced. -/
def setChannel (c : ChannelNo) (u : Option ChannelUse) (s : State) : State :=
  { s with rpe := { s.rpe with channels := s.rpe.channels.set c.val u } }

/-- The lowest-numbered free channel (R150). -/
def State.freeChannel (s : State) : Option ChannelNo := allChannels.find? (fun c => (s.channel c).isNone)

/-- The channel that slot `n`'s card holds. -/
def State.channelOf (s : State) (n : Slot) : Option ChannelNo :=
  allChannels.find? (fun c => (s.channel c).any (fun u => u.slot == n))

/-- The lowest-numbered channel whose record passes a test, with its record. -/
def State.findChannel (s : State) (p : ChannelUse → Bool) : Option (ChannelNo × ChannelUse) :=
  allChannels.findSome? (fun c =>
    match s.channel c with
    | none => none
    | some u => if p u then some (c, u) else none)

/-! ## Claims (R164, R165) -/

/-- The cost of a weight: sixteen times it, or the cap if that is smaller. -/
def State.costOf (s : State) (weight : Nat) : Nat := min (Config.sixteenths * weight) s.params.cap

/-- The admission weight of slot `n`'s bound kind; 0 when the kind has no entry (R30). -/
def State.admissionWeight (s : State) (n : Slot) : Nat :=
  match s.boundKind n with
  | none => 0
  | some k => k.admissionWeight

/-- The record weight of a range of slot `n`'s bound kind (R29). -/
def State.recordWeight (s : State) (n : Slot) (ix : Fin 8) : Nat :=
  match s.boundKind n with
  | none => 0
  | some k =>
    match k.ranges[ix.val]? with
    | none => 0
    | some r => r.weight

/-- A claim is placed with the Pacer; the credit does not change. -/
def placeClaim (n : Slot) (cost : Nat) (kind : ClaimKind) (s : State) : State :=
  { s with pacer := { s.pacer with
      claims := s.pacer.claims ++ [{ slot := n, priority := (s.slotEntry n).priority, cost := cost, kind := kind }] } }

/-- Slot `n`'s standing claim is withdrawn, if it has one; the credit does not change. -/
def withdrawClaim (n : Slot) (s : State) : State :=
  { s with pacer := { s.pacer with claims := s.pacer.claims.filter (fun c => c.slot != n) } }

/-- Claim `a` ranks ahead of claim `b`: priority class first, then slot number. -/
def Claim.before (a b : Claim) : Bool :=
  a.priority < b.priority || (a.priority == b.priority && a.slot.val < b.slot.val)

/-- The best-ranked of some claims. -/
def bestClaim : List Claim → Option Claim
  | [] => none
  | c :: rest =>
    match bestClaim rest with
    | none => some c
    | some d => if d.before c then some d else some c

/-! ## The Admission List (R149) -/

/-- Entry `a` stands ahead of entry `b`: a better class, or the same class and an earlier stamp. -/
def ListEntry.ahead (a b : ListEntry) : Bool :=
  a.priority < b.priority || (a.priority == b.priority && a.stamp < b.stamp)

/-- An entry placed after every entry that stands ahead of it, and before every other. -/
def insertEntry (e : ListEntry) : List ListEntry → List ListEntry
  | [] => [e]
  | x :: rest => if x.ahead e then x :: insertEntry e rest else e :: x :: rest

/-- The stamps of the cards in the Replay Engine's keeping. -/
def Rpe.stamps (r : Rpe) : List Nat :=
  r.list.map (fun e => e.stamp) ++ r.channels.toList.filterMap (fun u => u.map (fun x => x.stamp))

/-- The stamp that a stamp becomes at a renumbering: how many stamps are earlier. -/
def Rpe.renumbered (r : Rpe) (stamp : Nat) : Nat := (r.stamps.filter (fun x => x < stamp)).length

/-- The cards in keeping receive stamps 0, 1, 2 and onward in stamp order, and the counter their number (R149). -/
def Rpe.renumber (r : Rpe) : Rpe :=
  { r with
    list := r.list.map (fun e => { e with stamp := r.renumbered e.stamp })
    channels := r.channels.map (fun u => u.map (fun x => { x with stamp := r.renumbered x.stamp }))
    arrival := r.stamps.length }

/-- Renumbering is due when a stamp is to be given and the counter stands at 65535. -/
def Rpe.ready (r : Rpe) : Rpe := if r.arrival = 65535 then r.renumber else r

/-- A renewed card joins the Admission List with a new stamp and wait kind FRESH. -/
def joinList (n : Slot) (s : State) : State :=
  let r := s.rpe.ready
  { s with rpe := { r with
      list := insertEntry { slot := n, priority := (s.slotEntry n).priority, stamp := r.arrival, wait := .fresh } r.list
      arrival := r.arrival + 1 } }

/-! ## Release and preemption (R156, R157) -/

/-- Slot `n` gives up its channel, its place on the list and in the admission order, and its claim (R156). What it handed over
to its link is withdrawn as its card changes state. -/
def releaseReplay (n : Slot) (s : State) : State :=
  withdrawClaim n { s with rpe :=
    { s.rpe with
      channels := s.rpe.channels.map (fun u => u.filter (fun x => x.slot != n))
      list := s.rpe.list.filter (fun e => e.slot != n)
      order := s.rpe.order.filter (fun m => m != n) } }

/-- A channel is suspend-requested. -/
def State.suspendFlagged (s : State) : Bool := (s.findChannel (fun u => u.suspendRequested)).isSome

/-- The greatest of some numbers, 0 for none: the worst of some priority classes. -/
def worstOf : List Nat → Nat
  | [] => 0
  | x :: rest => max x (worstOf rest)

/-- The worst class among the cards that hold channels. -/
def State.worstClass (s : State) : Nat :=
  worstOf (s.rpe.channels.toList.filterMap (fun u => u.map (fun x => (s.slotEntry x.slot).priority)))

/-- No channel is free and the head's class is strictly better than the worst class among the REPLAYING cards (R157). -/
def State.preemptionCalledFor (s : State) : Bool :=
  s.freeChannel.isNone &&
    match s.rpe.list with
    | [] => false
    | e :: _ => e.priority < s.worstClass

/-- The victim: of the worst class, the card latest in the admission order (R157). -/
def State.victim (s : State) : Option Slot :=
  s.rpe.order.reverse.find? (fun n => (s.slotEntry n).priority == s.worstClass)

/-- A channel's suspend-requested flag set or cleared, for the channels whose record passes a test. -/
def flagChannels (p : ChannelUse → Bool) (flag : Bool) (s : State) : State :=
  { s with rpe := { s.rpe with
      channels := s.rpe.channels.map (fun u =>
        u.map (fun x => if p x then { x with suspendRequested := flag } else x)) } }

/-- The step of slot `n`'s channel changed. -/
def setStep (n : Slot) (st : ChannelStep) (s : State) : State :=
  { s with rpe := { s.rpe with
      channels := s.rpe.channels.map (fun u => u.map (fun x => if x.slot = n then { x with step := st } else x)) } }

end Sys2Proof.Machine
end

