-- ==== Sys2Proof/Machine/Cards.lean ====
section
/-!
DEFINITION. The Relink Controller (chapters 7 and 8): the moves between card states with what each brings, identification, the
card-failure path, quarantine, and the effects of control commands.
-/

namespace Sys2Proof.Machine

/-! ## The ready timer (R117) -/

/-- At a card's entry into a state: the timer starts if all that makes it run is true and it is stopped, and stops if not. So it
starts again at an entry that follows its expiry in EMPTY (the model's reading of R117 and R120: notes/assumptions/33.md). -/
def readyTimerOnMove (n : Slot) (s : State) : State :=
  if s.readyTimerDue n then modCard n (fun c => { c with ready := c.ready.startIfStopped }) s
  else modCard n (fun c => { c with ready := .stopped }) s

/-- At a change on the link: the timer starts only if all that makes it run has become true in this event (`before`: it was
true already), and stops if it is not true. -/
def readyTimerOnLink (n : Slot) (before : Bool) (s : State) : State :=
  if s.readyTimerDue n then
    if before then s else modCard n (fun c => { c with ready := c.ready.startIfStopped }) s
  else modCard n (fun c => { c with ready := .stopped }) s

/-! ## Leaving and entering states -/

/-- A waiting read of slot `n` is answered RETRY and given up; a LOCKED READ asks for UNLOCK if the link is aligned (R76,
R78). -/
def endWaitingRead (n : Slot) (s : State) : State :=
  match s.port.current with
  | none => s
  | some r =>
    if r.slot = n then
      let s := respond .retry { s with port := { s.port with current := none } }
      let s := modLink n (fun l =>
        { l with pendingRead := none, outstanding := l.outstanding.filter (fun t => t.source != .read) }) s
      if r.locked then askUnlockIfAligned n s else s
    else s

/-- A lock record naming slot `n` is removed, with UNLOCK asked for if the link is aligned (R81). -/
def dropLock (n : Slot) (s : State) : State :=
  match s.port.lock with
  | none => s
  | some l => if l.slot = n then askUnlockIfAligned n { s with port := { s.port with lock := none } } else s

/-- The card leaves IN_SERVICE (R121); ADOPT-pending, and the identity read owed under it (R144), are kept only toward
LOSS_HOLD. -/
def leaveService (n : Slot) (toLossHold : Bool) (s : State) : State :=
  modCard n (fun c =>
    { c with stability := .stopped, adoptPending := toLossHold && c.adoptPending,
             identityOwed := toLossHold && c.identityOwed })
    (dropLock n (endWaitingRead n s))

/-- What a card's record loses as it leaves a state: the hold-off timer and, but for a return to service, ADOPT-pending on the
way out of LOSS_HOLD (R124, R139), and the identity read owed there (R144); the absence timer, its value kept toward IDENTIFY, and
the restart wait on the way out of DOWN (R125, R126). -/
def Card.leaving (c : Card) (st : CardState) : Card :=
  { c with
    holdOff := if c.state = .lossHold then .stopped else c.holdOff
    adoptPending := if c.state = .lossHold ∧ st ≠ .inService then false else c.adoptPending
    identityOwed := if c.state = .lossHold then false else c.identityOwed
    absenceKept := if st = .identify then (if c.state = .down then c.absence.value else none) else c.absenceKept
    absence := if c.state = .down ∧ st ≠ .down then .stopped else c.absence
    restartWait := if c.state = .down then false else c.restartWait
    state := st }

/-- The Relink Controller moves card `n` to a state: the effects of leaving the old one, the relink request of the state left
withdrawn or abandoned (R116), and the ready timer (R117). -/
def moveTo (n : Slot) (st : CardState) (s : State) : State :=
  let s := if (s.slot n).card.state = .inService ∧ st ≠ .inService then leaveService n (st = .lossHold) s else s
  readyTimerOnMove n (modCard n (fun c => c.leaving st) (withdrawRelink n s))

/-- The card enters LOSS_HOLD (R123): the hold-off timer starts, and on a link still aligned the outstanding transaction is cut
off but for an UNLOCK. -/
def enterLossHold (n : Slot) (s : State) : State :=
  let s := modCard n (fun c => { c with holdOff := .running 0 }) (moveTo n .lossHold s)
  if s.aligned n then cutOffOutstanding n false s else s

/-- The card enters IN_SERVICE (R120): expected-restart cleared, the stability timer started. -/
def enterService (n : Slot) (s : State) : State :=
  modCard n (fun c => { c with expectedRestart := false, stability := .running 0 }) (moveTo n .inService s)

/-- On entry to IN_SERVICE with PGOOD not 1 the card goes to LOSS_HOLD (R120). -/
def checkSupply (n : Slot) (s : State) : State := if s.pgoodIsOne n then s else enterLossHold n s

/-- The card enters IDENTIFY (R127): a SUSPENDED transaction is set aside and an identity read handed over. -/
def enterIdentify (n : Slot) (s : State) : State :=
  handOver n .identity false (setAsideSuspended n (moveTo n .identify s))

/-- A card in DOWN goes to IDENTIFY when its link is aligned, READY 1 and PGOOD 1, unless it waits for a restart (R125, R126). -/
def identifyIfUp (n : Slot) (s : State) : State :=
  if (s.slot n).card.state == .down && !(s.slot n).card.restartWait && s.aligned n && s.readyIsOne n && s.pgoodIsOne n then
    enterIdentify n s
  else s

/-- The card enters DOWN (R125): `expect` sets expected-restart, the absence timer starts from `from_`, and with
expected-restart on an aligned link the restart wait begins (R126). -/
def enterDown (n : Slot) (expect : Bool) (from_ : Nat) (s : State) : State :=
  let s := modCard n (fun c =>
    { c with expectedRestart := expect, absence := .running from_, absenceKept := none, restartWait := false })
    (moveTo n .down s)
  if expect && s.aligned n then modCard n (fun c => { c with restartWait := true, ready := .running 0 }) s
  else identifyIfUp n (readyTimerOnMove n s)

/-! ## EMPTY slots (R118, R119, R141) -/

/-- Every timer of a record stopped. -/
def Card.timersStopped (c : Card) : Card :=
  { c with holdOff := .stopped, absence := .stopped, absenceKept := none, ready := .stopped, stability := .stopped }

/-- A record as R141 leaves it, the REFUSED flag as it stood. -/
def Card.emptied (c : Card) (retired : Bool) : Card :=
  { c.timersStopped with
    bound := none, candidate := none, attempt := 0, reason := none, expectedRestart := false, wipeOwed := false,
    adoptPending := false, identityOwed := false, restartWait := false, retired := retired }

/-- The slot becomes EMPTY: its journal freed and INCOMPLETE cleared, its queue discarded, its record as R141 gives. -/
def becomeEmpty (n : Slot) (retired : Bool) (s : State) : State :=
  modCard n (fun c => c.emptied retired) (moveTo n .empty (discardQueue n (journalRestart n s)))

/-- An EMPTY slot hands over an identity read, unless it holds a candidate, bears the retired mark, or has a relink request
already (R118, R141). -/
def tryBind (n : Slot) (forced : Bool) (s : State) : State :=
  if (s.slot n).card.candidate.isSome || (s.slot n).card.retired || s.relinkBusy n then s
  else handOver n .identity forced s

/-- The identity is bound to the slot and the card becomes IN_SERVICE with attempt level 0 (R119). -/
def bindCard (n : Slot) (i : Identity) (s : State) : State :=
  enterService n (modCard n (fun c => { c with bound := some i, candidate := none, attempt := 0 }) s)

/-- A CLEAR or RETIRE to a QUARANTINED card takes its effects at once (R145). -/
def takeEffectAtOnce (n : Slot) (s : State) : State :=
  let s := becomeEmpty n (!s.aligned n) s
  if s.aligned n then
    readyTimerOnMove n (if s.readyIsOne n then tryBind n false s else s)
  else s

/-! ## Quarantine and card failures (R132, R133) -/

/-- The card enters QUARANTINED (R133). The outstanding transaction is dropped before the card leaves its state, so that an UNLOCK
asked for as it leaves is owed (notes/assumptions/36.md). -/
def quarantine (n : Slot) (r : Reason) (s : State) : State :=
  let s := releaseReplay n (discardQueue n (dropLock n (moveTo n .quarantined (abandonAll n s))))
  let s := modCard n (fun c => { c.timersStopped with reason := some r }) s
  if r = .incomplete ∨ r = .journalError then journalFree n s else s

/-- The six kinds of card failure (R132). -/
inductive FailureKind where
  | transactionFailure
  | readyLimitExpiry
  | linkLoss
  | failedIdentityRead
  | storeNotRenewed
  | replayFailure
  deriving DecidableEq, Repr

/-- The quarantine reason of a third failure (R132). -/
def FailureKind.reason : FailureKind → Reason
  | .transactionFailure => .unresponsive
  | .readyLimitExpiry => .unresponsive
  | .linkLoss => .unstable
  | .failedIdentityRead => .unstable
  | .storeNotRenewed => .unstable
  | .replayFailure => .unstable

/-- A card failure is counted: steps 1 and 2 of R132. -/
def Card.failed (c : Card) : Card :=
  { c with wipeOwed := c.wipeOwed || c.replayStarted, attempt := min Config.attemptLimit (c.attempt + 1) }

/-- The forced RESTART, if the link is aligned (R132). -/
def forceRestartIfAligned (n : Slot) (s : State) : State := if s.aligned n then handOver n .restart true s else s

/-- The card-failure path (R132), the outstanding transaction abandoned first (notes/assumptions/36.md). -/
def cardFailure (n : Slot) (k : FailureKind) (s : State) : State :=
  let s := modCard n Card.failed s
  if (s.slot n).card.attempt = Config.attemptLimit then quarantine n k.reason s
  else forceRestartIfAligned n (enterDown n true 0 (abandonAll n (releaseReplay n s)))

/-- A parity error found by a replay read or a shadow lookup, or in service by a KEEP rewrite (R23). -/
def reportParity (n : Slot) (s : State) : State :=
  match (s.slot n).card.state with
  | .inService => makeIncomplete n s
  | .lossHold => quarantine n .journalError s
  | .down => quarantine n .journalError s
  | .identify => quarantine n .journalError s
  | .admitWait => quarantine n .journalError s
  | .replaying => quarantine n .journalError s
  | .suspended => quarantine n .journalError s
  | .empty => s
  | .quarantined => s

/-! ## Identification (R128 to R130, R134) -/

/-- A FRESH card has lost its store (R130). -/
def renew (n : Slot) (s : State) : State :=
  let s := modCard n (fun c => { c with expectedRestart := false }) (abandonAll n s)
  if s.mode = .unprotected then handOver n .adopt false s
  else if (s.slot n).card.wipeOwed then
    let kept := (s.slot n).card.absenceKept
    handOver n .restart true (enterDown n true (kept.getD 0) s)
  else moveTo n .admitWait (joinList n (staleJournal n s))

/-- The card returns to service with its store kept, or to DOWN if its supply is not good (R129). -/
def returnToService (n : Slot) (s : State) : State :=
  if s.pgoodIsOne n then resumeHead n (enterService n s)
  else enterDown n false ((s.slot n).card.absenceKept.getD 0) s

/-- A FRESH card known to be the bound one: quarantined if its journal is INCOMPLETE, else renewed (R128). -/
def judgeFresh (n : Slot) (s : State) : State :=
  if (s.slot n).card.incomplete then quarantine n .incomplete s else renew n s

/-- An identity is bound in place of the bound one (R128, R144). -/
def rebind (n : Slot) (i : Identity) (s : State) : State := modCard n (fun c => { c with bound := some i }) s

/-- The comparison of an identity read with the bound identity, FRESH valid (R128). -/
def compareIdentity (n : Slot) (i : Identity) (fresh : Bool) (s : State) : State :=
  match (s.slot n).card.bound with
  | none => s
  | some b =>
    if i.kind ≠ b.kind then quarantine n .mismatch s
    else if i.serial ≠ b.serial then
      if fresh ∧ (s.slotEntry n).likeReplacement then
        judgeFresh n (modCard n (fun c => { c with wipeOwed := false }) (rebind n i s))
      else quarantine n .mismatch s
    else
      let s := rebind n i s
      if fresh then judgeFresh n s
      else if (s.slot n).card.expectedRestart ∨ (s.slot n).card.replayStarted then cardFailure n .storeNotRenewed s
      else returnToService n s

/-- The identity DATA of an EMPTY slot (R119). -/
def judgeEmpty (n : Slot) (i : Identity) (fresh : Bool) (s : State) : State :=
  if fresh then handOver n .adopt false (modCard n (fun c => { c with candidate := some i }) s)
  else checkSupply n (makeIncomplete n (bindCard n i s))

/-- The identity DATA of a watched QUARANTINED card (R134). -/
def judgeWatched (n : Slot) (i : Identity) (fresh : Bool) (s : State) : State :=
  match (s.slot n).card.bound with
  | none => s
  | some b =>
    if i.matchesId b then
      compareIdentity n i fresh
        (moveTo n .identify (modCard n (fun c => { c with reason := none, attempt := 0 }) s))
    else modCard n (fun c => { c with reason := some .mismatch }) s

/-- The identity DATA read after a CLEAR acknowledged by a QUARANTINED card, whatever FRESH reports (R144). Where the kind differs the
move to EMPTY does not restart a running ready timer (R117; the model's reading: notes/assumptions/38.md). -/
def judgeCleared (n : Slot) (i : Identity) (s : State) : State :=
  match (s.slot n).card.bound with
  | none => s
  | some b =>
    if i.kind = b.kind then handOver n .adopt false (modCard n (fun c => { c with identityOwed := false }) (rebind n i s))
    else
      handOver n .adopt false (readyTimerOnMove n
        (modCard n (fun c => { c with candidate := some i, ready := (s.slot n).card.ready }) (becomeEmpty n false s)))

/-- The reasons whose quarantine is watched (R134). -/
def Reason.watched : Reason → Bool
  | .absent => true
  | .mismatch => true
  | _ => false

/-- The card is QUARANTINED with a watched reason. -/
def State.isWatched (s : State) (n : Slot) : Bool :=
  (s.slot n).card.state == .quarantined && (s.slot n).card.reason.any Reason.watched

/-- The watch hands over an identity read when READY is 1 (R134). -/
def watchRead (n : Slot) (s : State) : State :=
  if s.isWatched n && s.readyIsOne n && !s.relinkBusy n then handOver n .identity false s else s

/-- The identity DATA of a relink identity read is taken; with FRESH invalid the read is handed over again, forced if it was
(R118, R127, R134). -/
def identityTaken (n : Slot) (i : Identity) (forced : Bool) (s : State) : State :=
  match (s.slot n).card.state, (s.bits n).fresh with
  | .inService, _ => if (s.slot n).card.identityOwed then judgeCleared n i s else s
  | .empty, some f => judgeEmpty n i f s
  | .empty, none => handOver n .identity forced s
  | .identify, some f => compareIdentity n i f s
  | .identify, none => handOver n .identity forced s
  | .quarantined, some f => if s.isWatched n then judgeWatched n i f s else s
  | .quarantined, none => if s.isWatched n then handOver n .identity forced s else s
  | _, _ => s

/-! ## Link events reported to the Relink Controller -/

/-- The return from LOSS_HOLD: the suspended write is resumed, and an ADOPT owed under ADOPT-pending handed over again (R124,
R139). A card that was cleared and whose identity has not been read since leaves by identification instead (R144;
notes/assumptions/35.md). -/
def returnFromLoss (n : Slot) (s : State) : State :=
  if (s.slot n).card.identityOwed then enterIdentify n s
  else
    let s := resumeHead n (enterService n s)
    if (s.slot n).card.adoptPending then handOver n .adopt false s else s

/-- The framer reports an acquisition (R88); the retired mark is cleared first (R141). -/
def acquired (n : Slot) (change : Bool) (s : State) : State :=
  let s := modCard n (fun c => { c with retired := false }) s
  readyTimerOnLink n false
    (match (s.slot n).card.state with
     | .empty => if s.readyIsOne n then tryBind n false s else s
     | .lossHold =>
       if change || (s.bits n).fresh != some false then enterIdentify n s
       else if s.pgoodIsOne n then returnFromLoss n s
       else s
     | .down => identifyIfUp n s
     | .quarantined => watchRead n s
     | .inService => s
     | .identify => s
     | .admitWait => s
     | .replaying => s
     | .suspended => s)

/-- A FRESH rise is reported (R94). ADOPT-pending absorbs it in IN_SERVICE only (the model's reading of R120, R124 and R139:
notes/assumptions/37.md); in IN_SERVICE the outstanding transaction is abandoned before the card leaves (notes/assumptions/36.md). -/
def freshRise (n : Slot) (s : State) : State :=
  match (s.slot n).card.state with
  | .inService =>
    if (s.slot n).card.adoptPending then s else enterIdentify n (abandonAll n s)
  | .lossHold => enterIdentify n s
  | .down => identifyIfUp n (modCard n (fun c => { c with restartWait := false }) s)
  | _ => s

/-- A READY change to 1 is reported (R94). -/
def readyRise (n : Slot) (s : State) : State :=
  match (s.slot n).card.state with
  | .empty => tryBind n false s
  | .down => identifyIfUp n s
  | .quarantined => watchRead n s
  | _ => s

/-- A PGOOD change is reported with its new value (R94). -/
def pgoodChange (n : Slot) (good : Bool) (s : State) : State :=
  match (s.slot n).card.state with
  | .inService => if good then s else enterLossHold n s
  | .lossHold => if good && s.aligned n && (s.bits n).fresh == some false then returnFromLoss n s else s
  | .down => if good then identifyIfUp n s else s
  | _ => s

/-- The framer reports out-of-frame (R92), the link having cut its transaction off: the card's part. -/
def linkLost (n : Slot) (s : State) : State :=
  match (s.slot n).card.state with
  | .empty => modCard n (fun c => { c with candidate := none, ready := .stopped }) (withdrawRelink n s)
  | .inService => enterLossHold n s
  | .lossHold => s
  | .down => modCard n (fun c => { c with restartWait := false, ready := .stopped }) s
  | .identify => cardFailure n .linkLoss s
  | .admitWait => cardFailure n .linkLoss s
  | .replaying => cardFailure n .linkLoss s
  | .suspended => cardFailure n .linkLoss s
  | .quarantined =>
    let s := withdrawRelink n s
    if (s.slot n).queue.head?.any (fun q => q.tag.isSome) then takeEffectAtOnce n s else s

/-- A transaction failure is reported (R110): a card failure in IN_SERVICE, IDENTIFY and the Replay Engine's keeping (R169); the
end of an EMPTY slot's attempt where the identity read or the ADOPT of that attempt failed (R118, R119), while an UNLOCK's failure
there leaves the attempt as it is (the model's choice: notes/assumptions/42.md); nothing elsewhere. -/
def failureReported (n : Slot) (source : Source) (s : State) : State :=
  match (s.slot n).card.state with
  | .inService => cardFailure n .transactionFailure s
  | .identify => cardFailure n .transactionFailure s
  | .admitWait => cardFailure n .transactionFailure s
  | .replaying => cardFailure n .transactionFailure s
  | .suspended => cardFailure n .transactionFailure s
  | .empty => if source.isRelink then modCard n (fun c => { c with candidate := none }) s else s
  | .lossHold => s
  | .down => s
  | .quarantined => s

/-! ## Control commands acknowledged (chapter 8) -/

/-- The effects of a command acknowledged by a card in IN_SERVICE (R138, R140, R141, R142). -/
def commandInService (n : Slot) (c : Command) (s : State) : State :=
  match c with
  | .clear =>
    handOver n .adopt false
      (modCard n (fun c => { c with attempt := 0, wipeOwed := false, adoptPending := true }) (journalRestart n s))
  | .restart => enterDown n true 0 (modCard n (fun c => { c with wipeOwed := false }) (markStale n s))
  | .retire => becomeEmpty n true s
  | .rebase => journalRestart n s

/-- The effects of a command acknowledged by a QUARANTINED card (R144). -/
def commandQuarantined (n : Slot) (c : Command) (s : State) : State :=
  match c with
  | .clear =>
    let s := enterService n
      (modCard n (fun c => { c with reason := none, attempt := 0, expectedRestart := false, wipeOwed := false }) (journalRestart n s))
    checkSupply n (handOver n .identity false (modCard n (fun c => { c with adoptPending := true, identityOwed := true }) s))
  | .retire => becomeEmpty n true s
  | .restart => s
  | .rebase => s

/-- The card has acknowledged a control command; the entry is retired already (R136). -/
def commandAcked (n : Slot) (c : Command) (s : State) : State :=
  match (s.slot n).card.state with
  | .inService => commandInService n c s
  | .quarantined => commandQuarantined n c s
  | _ => s

end Sys2Proof.Machine
end

