-- ==== Sys2Proof/Machine/Settle.lean ====
section
/-!
DEFINITION. What an event brings about before it ends: the Replay Engine's and the Pacer's considerations one after another,
entry to UNPROTECTED mode after a part-level fault, and the dispatchers.

The manual has each consideration made in the event that changes one of its conditions. Here each is made whenever its conditions
hold, in a fixed order, until none is left (notes/assumptions/8.md).
-/

namespace Sys2Proof.Machine

/-! ## Single considerations -/

/-- A PGOOD that is not 1 withdraws the claim of a channel in CLAIMED, its record dropped from hand, and an ADOPT not yet started
of a channel in ADOPTING (R152, R154). -/
def considerSupplyLost (s : State) : Option State :=
  match s.findChannel (fun u =>
      !s.pgoodIsOne u.slot &&
        match u.step with
        | .claimed _ => true
        | .adopting => (s.slot u.slot).link.pendingRelink.isSome
        | .waiting => false
        | .sent _ => false) with
  | none => none
  | some (_, u) =>
    match u.step with
    | .claimed _ => some (setStep u.slot .waiting (withdrawClaim u.slot s))
    | _ => some (modLink u.slot (fun l => { l with pendingRelink := none }) s)

/-- The head of the list takes channel `c`: REPLAYING, with its stamp, latest in the admission order, its records replayed since
resume 0 (R150, R151). -/
def takeChannel (c : ChannelNo) (e : ListEntry) (s : State) : State :=
  let s := setChannel c (some { slot := e.slot, stamp := e.stamp, step := .waiting, suspendRequested := false }) s
  let s := { s with rpe := { s.rpe with
      list := s.rpe.list.filter (fun x => x.slot != e.slot)
      order := s.rpe.order.filter (fun m => m != e.slot) ++ [e.slot] } }
  moveTo e.slot .replaying (modCard e.slot (fun c => { c with sinceResume := 0 }) s)

/-- A granted claim is handed to the Replay Engine: an admission (R150), or a record handed to the link (R152). -/
def applyGrant (c : Claim) (s : State) : State :=
  match c.kind with
  | .admission =>
    match s.freeChannel, s.rpe.list with
    | some ch, e :: _ => if e.slot = c.slot then takeChannel ch e s else s
    | _, _ => s
  | .record =>
    match s.findChannel (fun u => u.slot == c.slot) with
    | some (_, u) =>
      match u.step with
      | .claimed r => setStep c.slot (.sent r) (handOver c.slot (.record r.word r.value) false s)
      | _ => s
    | none => s

/-- Granting (R165): the best-ranked claim is granted if PWARN is deasserted and the credit covers its cost. -/
def considerGrant (s : State) : Option State :=
  if s.pacer.pwarn then none
  else
    match bestClaim s.pacer.claims with
    | none => none
    | some c =>
      if c.cost ≤ s.pacer.credit then
        some (applyGrant c (withdrawClaim c.slot { s with pacer := { s.pacer with credit := s.pacer.credit - c.cost } }))
      else none

/-- A suspend-requested flag is cleared when its reason has gone (R159). -/
def considerClearFlag (s : State) : Option State :=
  if s.suspendFlagged && !s.preemptionCalledFor then some (flagChannels (fun u => u.suspendRequested) false s) else none

/-- A suspend-requested channel at a record boundary, BUSY 0 and enough progress made, suspends its card (R158). -/
def considerSuspend (s : State) : Option State :=
  match s.findChannel (fun u =>
      u.suspendRequested && s.busyIsZero u.slot && Config.progressMinimum ≤ (s.slot u.slot).card.sinceResume &&
        match u.step with
        | .waiting => true
        | .claimed _ => true
        | .sent _ => false
        | .adopting => false) with
  | none => none
  | some (_, u) =>
    let s := releaseReplay u.slot s
    let e : ListEntry := { slot := u.slot, priority := (s.slotEntry u.slot).priority, stamp := u.stamp, wait := .resume }
    some (moveTo u.slot .suspended { s with rpe := { s.rpe with list := insertEntry e s.rpe.list } })

/-- A channel in WAITING asks the journal for its card's next record (R19, R152). -/
def askRecord (u : ChannelUse) (s : State) : State :=
  match s.oldestStale u.slot with
  | none => setStep u.slot .adopting s
  | some h =>
    if h.entry.parityError then reportParity u.slot s
    else
      let cost := s.costOf (s.recordWeight u.slot h.entry.range)
      placeClaim u.slot cost .record
        (setStep u.slot (.claimed { word := h.entry.word, value := h.entry.value, range := h.entry.range, cost := cost }) s)

/-- A channel whose card has PGOOD 1 goes on: from WAITING it asks for a record, in ADOPTING it hands over ADOPT (R152,
R154). -/
def considerChannel (s : State) : Option State :=
  match s.findChannel (fun u =>
      s.pgoodIsOne u.slot &&
        match u.step with
        | .waiting => true
        | .adopting => !s.relinkBusy u.slot
        | .claimed _ => false
        | .sent _ => false) with
  | none => none
  | some (_, u) =>
    match u.step with
    | .adopting => some (handOver u.slot .adopt false s)
    | _ => some (askRecord u s)

/-- The slot whose admission claim should stand: the FRESH head of the list while a channel is free (R150). -/
def State.admissionDue (s : State) : Option Slot :=
  match s.freeChannel, s.rpe.list with
  | some _, e :: _ => if e.wait = .fresh then some e.slot else none
  | _, _ => none

/-- An admission claim of a card that is not, or no longer, the FRESH head with a channel free is withdrawn (R150). -/
def considerAdmissionWithdrawn (s : State) : Option State :=
  match s.pacer.claims.find? (fun c => c.kind == .admission && s.admissionDue != some c.slot) with
  | none => none
  | some c => some (withdrawClaim c.slot s)

/-- The due admission claim is placed if it does not stand (R150). -/
def considerAdmissionPlaced (s : State) : Option State :=
  match s.admissionDue with
  | none => none
  | some n =>
    if s.pacer.claims.any (fun c => c.kind == .admission && c.slot == n) then none
    else some (placeClaim n (s.costOf (s.admissionWeight n)) .admission s)

/-- A RESUME head takes a free channel without any claim (R151). -/
def considerResume (s : State) : Option State :=
  match s.freeChannel, s.rpe.list with
  | some ch, e :: _ => if e.wait = .resume then some (takeChannel ch e s) else none
  | _, _ => none

/-- Preemption sets the victim's suspend-requested flag, at most one at a time (R157). -/
def considerPreempt (s : State) : Option State :=
  if s.preemptionCalledFor && !s.suspendFlagged then
    match s.victim with
    | none => none
    | some n => some (flagChannels (fun u => u.slot == n) true s)
  else none

/-- The first consideration whose conditions hold, in the model's order: a claim is withdrawn before granting is considered, and
granting is considered again after it and after each claim placed (R165; notes/assumptions/26.md). -/
def consider (s : State) : Option State :=
  (considerSupplyLost s).or <| (considerAdmissionWithdrawn s).or <| (considerGrant s).or <| (considerClearFlag s).or <|
    (considerSuspend s).or <| (considerChannel s).or <| (considerAdmissionPlaced s).or <| (considerResume s).or (considerPreempt s)

/-- Considerations one after another, at most `fuel` of them. -/
def settleWith : Nat → State → State
  | 0, s => s
  | fuel + 1, s =>
    match consider s with
    | none => s
    | some s => settleWith fuel s

/-- Far more considerations than any event can call for: each of the sixteen cards takes at most one channel, is asked for at most
one record, granted and suspended at most once in an event (notes/assumptions/25.md). -/
def settleFuel : Nat := 4096

/-- The Replay Engine and the Pacer considered until nothing is left to do. -/
def settle (s : State) : State := settleWith settleFuel s

/-! ## Entry to UNPROTECTED mode (R33, R160, R168, R172) -/

/-- A card released from the Replay Engine's keeping at the entry: IN_SERVICE with ADOPT-pending, an ADOPT already handed over
or outstanding kept, else handed over (R160). -/
def releaseUnprotected (n : Slot) (s : State) : State :=
  if (s.slot n).card.state.inKeeping then
    let pending := (s.slot n).link.pendingRelink.filter (fun r => r.what == .adopt)
    let outstanding := (s.slot n).link.outstanding.filter (fun t =>
      match t.source with
      | .relink r => r.what == .adopt
      | _ => false)
    let s := modCard n (fun c => { c with adoptPending := true }) (enterService n s)
    let s :=
      match outstanding, pending with
      | some t, _ => modLink n (fun l => { l with outstanding := some t }) s
      | none, some r => modLink n (fun l => { l with pendingRelink := some r }) s
      | none, none => handOver n .adopt false s
    checkSupply n s
  else s

/-- The part enters UNPROTECTED mode: the journal frees itself wholesale, the Pacer becomes idle, and every card in the Replay
Engine's keeping is released. -/
def enterUnprotected (s : State) : State :=
  let s := journalWipe { s with partFault := false, loader := { s.loader with mode := .unprotected } }
  let s := { s with
    rpe := { s.rpe with channels := Vector.replicate 4 none, list := [], order := [] }
    pacer := { s.pacer with credit := 0, backoff := 0, quiet := .stopped, claims := [] } }
  allSlots.foldl (fun s n => releaseUnprotected n s) s

/-- A part-level fault reported in this event is answered at its end (R172); in UNPROTECTED mode it changes nothing (R33). -/
def answerPartFault (s : State) : State :=
  if s.partFault then
    if s.mode = .normal then enterUnprotected s else { s with partFault := false }
  else s

/-! ## The end of an event -/

/-- A CLEAR or RETIRE standing at the head of a QUARANTINED card's queue, not in flight, while the link is not aligned or READY
is not 1, is retired DISCARDED and takes its effects at once (R58, R145). -/
def checkQuarantinedHead (n : Slot) (s : State) : State :=
  match (s.slot n).card.state, (s.slot n).queue with
  | .quarantined, q :: _ =>
    if q.tag.isNone && !(s.aligned n && s.readyIsOne n) then takeEffectAtOnce n s else s
  | _, _ => s

/-- The end of an event in which anything may have changed: replay and pacing, a part-level fault, then every dispatcher. -/
def finish (s : State) : State := dispatchAll (answerPartFault (settle s))

/-- The end of an event on slot `n`'s link. -/
def finishLink (n : Slot) (s : State) : State := finish (checkQuarantinedHead n s)

end Sys2Proof.Machine
end

