-- ==== Sys2Proof/Machine/Responses.lean ====
section
/-!
DEFINITION. The outcomes of transactions (sections 6.4 and 6.5): each response taken as the answer, and a failure, handed to its
source.
-/

namespace Sys2Proof.Machine

/-- The outstanding transaction has failed and is ended (R110). -/
def endTransaction (n : Slot) (s : State) : State := modLink n (fun l => { l with outstanding := none }) s

/-- The answer to the outstanding transaction `t` has been taken, which ends it (R106). A resend of it that is due is made all the
same (R109; notes/assumptions/32.md). -/
def endAnswered (n : Slot) (t : Txn) (s : State) : State :=
  modLink n (fun l =>
    { l with outstanding := none, lateSends := if t.sendDue then l.lateSends ++ [t.req] else l.lateSends }) s

/-- The port's waiting read of slot `n` is answered (R76, R78): the current access becomes none, and DATA for a LOCKED READ opens
the lock record. -/
def answerRead (n : Slot) (r : Response) (takeLock : Bool) (s : State) : State :=
  match s.port.current with
  | none => s
  | some c =>
    if c.slot = n then
      respond r { s with port := { s.port with
        current := none
        lock := if takeLock && c.locked then some { slot := n, word := c.word } else s.port.lock } }
    else s

/-! ## The queue head (R52, R53) -/

/-- The head is acknowledged: retired ACKED, then recorded or its command applied. -/
def headAcked (n : Slot) (s : State) : State :=
  match (s.slot n).queue with
  | [] => s
  | q :: _ =>
    let s := retireHead n s
    match q.kind with
    | .control c => commandAcked n c s
    | _ => if q.word.toNat < 4 then s else recordWrite n q s

/-- The head is refused: retired REFUSED, the slot's REFUSED flag set, and UNLOCK owed for a LOCKED entry. -/
def headRefused (n : Slot) (s : State) : State :=
  match (s.slot n).queue with
  | [] => s
  | q :: _ =>
    let s := modCard n (fun c => { c with refused := true }) (retireHead n s)
    if q.kind = .locked then askUnlock n s else s

/-! ## ADOPT and replay records -/

/-- The card has acknowledged ADOPT: the end of a binding (R119), of a renewal in UNPROTECTED mode (R130), of a replay (R154), or
of ADOPT-pending (R139). -/
def adoptAcked (n : Slot) (s : State) : State :=
  match (s.slot n).card.state with
  | .empty =>
    match (s.slot n).card.candidate with
    | none => s
    | some i => checkSupply n (bindCard n i s)
  | .identify => checkSupply n (enterService n s)
  | .replaying =>
    checkSupply n (enterService n
      (modCard n (fun c => { c with nakCount := 0, replayStarted := false }) (releaseReplay n s)))
  | .inService => modCard n (fun c => { c with adoptPending := false }) s
  | _ => s

/-- The card has refused ADOPT (R119, R130, R139, R154). -/
def adoptRefused (n : Slot) (s : State) : State :=
  match (s.slot n).card.state with
  | .empty => modCard n (fun c => { c with candidate := none }) s
  | .identify => cardFailure n .failedIdentityRead s
  | .replaying => cardFailure n .storeNotRenewed s
  | .inService => cardFailure n .storeNotRenewed s
  | _ => s

/-- The card has refused an identity read (R118, R127, R134, R144). -/
def identityRefused (n : Slot) (s : State) : State :=
  match (s.slot n).card.state with
  | .identify => cardFailure n .failedIdentityRead s
  | .inService => cardFailure n .failedIdentityRead s
  | _ => s

/-- A channel's record has been answered: confirmed, or refused and, at the eighth refusal, a replay failure (R153). -/
def recordAnswered (n : Slot) (accepted : Bool) (s : State) : State :=
  if (s.slot n).card.state = .replaying then
    if accepted then setStep n .waiting (confirmRecord n s)
    else
      let s := refuseRecord n s
      if (s.slot n).card.nakCount = Config.replayNakLimit then cardFailure n .replayFailure s else setStep n .waiting s
  else s

/-! ## Outcomes by source (R106, R110) -/

/-- An ACK taken as the answer. -/
def ackTaken (n : Slot) (src : Source) (s : State) : State :=
  match src with
  | .queueHead => headAcked n s
  | .relink r =>
    match r.what with
    | .identity => s
    | .restart => modCard n (fun c => { c with wipeOwed := false }) s
    | .adopt => adoptAcked n s
    | .record _ _ => recordAnswered n true s
  | .read => s
  | .unlock => s

/-- A NAK taken as the answer. -/
def nakTaken (n : Slot) (src : Source) (s : State) : State :=
  match src with
  | .queueHead => headRefused n s
  | .read => answerRead n .fault false s
  | .relink r =>
    match r.what with
    | .identity => identityRefused n s
    | .restart => s
    | .adopt => adoptRefused n s
    | .record _ _ => recordAnswered n false s
  | .unlock => s

/-- DATA taken as the answer. -/
def dataTaken (n : Slot) (src : Source) (v : Word32) (s : State) : State :=
  match src with
  | .read => answerRead n (.ready (some v)) true s
  | .relink r =>
    match r.what with
    | .identity => identityTaken n (Identity.ofWord v) r.forced s
    | _ => s
  | .queueHead => s
  | .unlock => s

/-- A response taken from a multiframe (R105): the answer to the outstanding transaction if that is ACTIVE, has its tag and its
kind fits; otherwise stray and discarded. -/
def takeResponse (n : Slot) (r : Resp) (s : State) : State :=
  match (s.slot n).link.outstanding with
  | none => s
  | some t =>
    if t.active && r.tag == t.req.tag && r.kind.fits t.req.kind then
      match r.kind with
      | .wait => modLink n (fun l => { l with outstanding := some t.waited }) s
      | .ack => ackTaken n t.source (endAnswered n t s)
      | .nak => nakTaken n t.source (endAnswered n t s)
      | .data => dataTaken n t.source r.value (endAnswered n t s)
    else s

/-- The outstanding transaction fails (R110): it ends, its source is told, and the failure goes to the Relink Controller. A
command in flight to a QUARANTINED card takes its effects at once (R58). -/
def failTransaction (n : Slot) (t : Txn) (s : State) : State :=
  let s := endTransaction n s
  match t.source with
  | .queueHead =>
    if (s.slot n).card.state = .quarantined then takeEffectAtOnce n s
    else failureReported n t.source (abandonHead n s)
  | .read => failureReported n t.source (answerRead n .retry false s)
  | .relink _ => failureReported n t.source s
  | .unlock => failureReported n t.source s

end Sys2Proof.Machine
end

