-- ==== Sys2Proof/Machine/Bus.lean ====
section
/-!
DEFINITION. The Controller Bus Port's judgement of one access (chapter 4), by the steps of R62.
-/

namespace Sys2Proof.Machine

/-! ## The lock (R79, R80) -/

/-- The access is a LOCKED WRITE that matches a lock record: the same slot and word, a word of the store or word 2. -/
def Access.closes (a : Access) (l : LockRecord) : Bool :=
  a.wordForm && a.kind == some .lockedWrite && a.slot == l.slot && a.word == l.word && (a.word == 2 || 4 ≤ a.word.toNat)

/-- An open lock is abandoned by any access other than the LOCKED WRITE that closes it (R80). -/
def abandonLock (a : Access) (s : State) : State :=
  match s.port.lock with
  | none => s
  | some l =>
    if a.closes l then s
    else dispatch l.slot (askUnlock l.slot { s with port := { s.port with lock := none } })

/-! ## Writes (R72) -/

/-- A write is offered to the Write Queue Manager: READY if it is accepted, RETRY if not (R44, R72). -/
def offerWrite (n : Slot) (w : WordNo) (v : Word32) (kind : WriteKind) (cls : Option RangeClass) (s : State) : State :=
  if s.hasRoom n then dispatch n (respond (.ready none) (acceptWrite n w v kind cls s)) else respond .retry s

/-- A matching LOCKED WRITE is offered as a LOCKED entry and closes the lock if it is accepted; any other is answered FAULT
(R79). -/
def judgeLockedWrite (a : Access) (cls : RangeClass) (s : State) : State :=
  match s.port.lock with
  | none => respond .fault s
  | some l =>
    if a.closes l then
      if s.hasRoom a.slot then
        offerWrite a.slot a.word a.value .locked (some cls) { s with port := { s.port with lock := none } }
      else respond .retry s
    else respond .fault s

/-- A control command for a QUARANTINED card (R58): queued if its link is aligned and READY is 1; otherwise, accepted like any
write (R44, R72), it takes a sequence number, is retired DISCARDED in the same event and takes its effects at once. The entry of
the pool that it takes is free again at its retirement. -/
def offerQuarantined (n : Slot) (c : Command) (s : State) : State :=
  if s.aligned n && s.readyIsOne n then offerWrite n 1 c.code (.control c) none s
  else if !s.hasRoom n then respond .retry s
  else
    finish (respond (.ready none) (updateLowMark (takeEffectAtOnce n
      { s with wqm := { s.wqm with nextSeq := s.wqm.nextSeq + 1 } })))

/-- A write of a command code to word 1 (R66, R71). -/
def judgeCommand (n : Slot) (c : Command) (s : State) : State :=
  match (s.slot n).card.state with
  | .empty => respond .fault s
  | .quarantined => if (WriteKind.control c).endsQuarantine then offerQuarantined n c s else respond .fault s
  | _ => offerWrite n 1 c.code (.control c) none s

/-! ## Reads (R73 to R77) -/

/-- The read becomes the port's current access and is made pending on its link (R75, R77). -/
def holdRead (n : Slot) (w : WordNo) (lockFlag : Bool) (s : State) : State :=
  dispatch n (modLink n (fun l => { l with pendingRead := some { word := w, lockFlag := lockFlag } })
    { s with port := { s.port with current := some { slot := n, word := w, locked := lockFlag } } })

/-- A read answered from a queue or the journal, or RETRY where neither has a value (R74). -/
def answerWith (v : Option Word32) (s : State) : State :=
  match v with
  | none => respond .retry s
  | some v => respond (.ready (some v)) s

/-- The shadow lookup of a KEEP word with no queued write (R22, R74); a parity error is answered RETRY and reported (R23). -/
def shadowRead (n : Slot) (w : WordNo) (s : State) : State :=
  if s.mode = .unprotected ∨ (s.slot n).card.incomplete then respond .retry s
  else
    match s.keepEntry n w with
    | none => respond .retry s
    | some h =>
      if h.entry.parityError then finish (respond .retry (reportParity n s))
      else respond (.ready (some h.entry.value)) s

/-- A READ of a store word or word 2 (R73). -/
def judgeRead (n : Slot) (w : WordNo) (cls : RangeClass) (s : State) : State :=
  if (s.slot n).card.state = .inService then
    if s.queueDepth n = 0 then holdRead n w false s
    else if cls = .keep then answerWith (s.newestQueued n w) s
    else respond .retry s
  else if cls = .keep then
    match s.newestQueued n w with
    | some v => respond (.ready (some v)) s
    | none => shadowRead n w s
  else respond .retry s

/-- A LOCKED READ of a store word (R77). -/
def judgeLockedRead (n : Slot) (w : WordNo) (s : State) : State :=
  if (s.slot n).card.state = .inService ∧ s.queueDepth n = 0 then holdRead n w true s else respond .retry s

/-! ## The judgement (R62) -/

/-- The card is EMPTY or QUARANTINED (R71). -/
def CardState.shut : CardState → Bool
  | .empty => true
  | .quarantined => true
  | _ => false

/-- Steps 6 and 7 for a store word or word 2 of a given class (R71, R72, R73). -/
def judgeCard (a : Access) (kind : AccessKind) (cls : RangeClass) (s : State) : State :=
  if (s.slot a.slot).card.state.shut then respond .fault s
  else
    match kind with
    | .read => judgeRead a.slot a.word cls s
    | .write => offerWrite a.slot a.word a.value .plain (some cls) s
    | .orderedWrite => offerWrite a.slot a.word a.value .ordered (some cls) s
    | .lockedRead => judgeLockedRead a.slot a.word s
    | .lockedWrite => judgeLockedWrite a cls s

/-- The read of word 3: the bridge status word, after which the REFUSED flag is cleared (R68, R69). -/
def readStatus (n : Slot) (s : State) : State :=
  modCard n (fun c => { c with refused := false }) (respond (.ready (some (s.statusWord n))) s)

/-- Step 4: the header words (R65 to R68); a LOCKED READ of any of them is answered FAULT (R77). -/
def judgeHeader (a : Access) (kind : AccessKind) (s : State) : State :=
  if a.word = 0 then
    match kind with
    | .read => respond (.ready (some (s.identityWord a.slot))) s
    | _ => respond .fault s
  else if a.word = 1 then
    match kind with
    | .read => respond .fault s
    | .lockedRead => respond .fault s
    | _ =>
      match commandOf a.value with
      | none => respond .fault s
      | some c => judgeCommand a.slot c s
  else if a.word = 2 then
    match kind with
    | .lockedRead => respond .fault s
    | _ => judgeCard a kind .live s
  else
    match kind with
    | .read => readStatus a.slot s
    | _ => respond .fault s

/-- Steps 3 to 7: form, header words, BARRED words, card and class (R64, R70). -/
def judgeForm (a : Access) (s : State) : State :=
  match a.kind with
  | none => respond .fault s
  | some kind =>
    if !a.wordForm then respond .fault s
    else if a.word.toNat < 4 then judgeHeader a kind s
    else if s.classOf a.slot a.word = .barred then respond .fault s
    else judgeCard a kind (s.classOf a.slot a.word) s

/-- The port takes an access (R61, R62, R63). While a read waits the bus is held and no access reaches the port. -/
def judge (a : Access) (s : State) : State :=
  if s.port.current.isSome then s
  else if s.mode = .loading then respond .retry s
  else judgeForm a (abandonLock a s)

end Sys2Proof.Machine
end

