-- ==== Sys2Proof/Machine/Framing.lean ====
section
/-!
DEFINITION. The framers (chapter 5): the search, acquisition and mimic refusal, the judgement of multiframes, loss of
alignment and debouncing.
-/

namespace Sys2Proof.Machine

/-- The sixty-four positions in order. -/
def allPositions : List Position := List.finRange 64

/-! ## What the received bits say -/

/-- The bit at position `p` of the frame received `age` frames ago. -/
def bitAt (frames : List RxFrame) (p : Position) (age : Nat) : Option Bool :=
  (frames[age]?).map (fun f => f.getLsbD p.val)

/-- The alignment word is seen at `p` ending at the newest frame (R85); of a finished multiframe, its alignment word is
unerrored (R89). -/
def wordSeen (frames : List RxFrame) (p : Position) : Bool :=
  bitAt frames p 15 == some true && bitAt frames p 13 == some true && bitAt frames p 11 == some false &&
    bitAt frames p 9 == some true && bitAt frames p 7 == some false && bitAt frames p 5 == some false &&
    bitAt frames p 3 == some true && bitAt frames p 1 == some false

/-- The status bits at position `p` of the multiframe that ended `age` frames ago: its frames 1, 3, 5 and 7 (R85). -/
def statusAt (frames : List RxFrame) (p : Position) (age : Nat) : StatusBits :=
  { fresh := bitAt frames p (14 + age), ready := bitAt frames p (12 + age), pgood := bitAt frames p (10 + age),
    busy := bitAt frames p (8 + age) }

/-- The bit periods since the last transition at the end of a frame: counting its bits from position `k` on, `last` the bit
before, `count` the count so far, which stays at the limit once it has reached it (R91). -/
def silenceAfter (f : RxFrame) : Nat → Nat → Option Bool → Nat → Nat
  | 0, _, _, count => count
  | left + 1, k, last, count =>
    silenceAfter f left (k + 1) (some (f.getLsbD k))
      (match last with
       | none => min Config.silenceLimit (count + 1)
       | some b => if f.getLsbD k = b then min Config.silenceLimit (count + 1) else 0)

/-- A receive frame listened to: the silence count carried on; a transition ends a declared loss of signal (R91). -/
def Framer.listen (fr : Framer) (f : RxFrame) : Framer :=
  { fr with
    silence := silenceAfter f 64 0 fr.lastBit fr.silence
    lossDeclared := fr.lossDeclared && silenceAfter f 64 0 fr.lastBit fr.silence == Config.silenceLimit
    lastBit := some (f.getLsbD 63) }

/-- A receive frame taken in: listened to, and its bits kept. -/
def Framer.receive (fr : Framer) (f : RxFrame) : Framer := { fr.listen f with frames := (f :: fr.frames).take 32 }

/-! ## The search (R85 to R88) -/

/-- The sightings after a receive frame: each one frame older, those more than 32 frames old dropped, and the new ones. -/
def Framer.sight (fr : Framer) : Framer :=
  { fr with sightings :=
      ((fr.sightings.map (fun x => { x with age := x.age + 1 })).filter (fun x => x.age ≤ Config.sightingAge))
        ++ (allPositions.filter (fun p => wordSeen fr.frames p)).map (fun p => { position := p, age := 0 }) }

/-- The alignment word has been seen at `p` in two consecutive multiframes, the second ending now (R86). -/
def Framer.paired (fr : Framer) (p : Position) : Bool :=
  fr.sightings.any (fun x => x.position == p && x.age == 0) && fr.sightings.any (fun x => x.position == p && x.age == 16)

/-- The alignment word was seen at another position in the two multiframes of an acquisition at `p` (R87). -/
def Framer.mimicked (fr : Framer) (p : Position) : Bool :=
  fr.sightings.any (fun x => x.position != p && x.age < 32)

/-- The acquisition at `p` is refused: mimic checking is on and another position was seen (R87). -/
def Framer.refusedAt (fr : Framer) (mimicChecking : Bool) (p : Position) : Bool := mimicChecking && fr.mimicked p

/-- The lowest-numbered position that acquires (R86, R87). -/
def Framer.acquires (fr : Framer) (mimicChecking : Bool) : Option Position :=
  allPositions.find? (fun p => fr.paired p && !fr.refusedAt mimicChecking p)

/-- An acquisition has been refused at the end of this frame (R87). -/
def Framer.refuses (fr : Framer) (mimicChecking : Bool) : Bool :=
  allPositions.any (fun p => fr.paired p && fr.refusedAt mimicChecking p)

/-- A bit's debounced value at acquisition: its value in the two multiframes if they agree (R93). -/
def agreed (a b : Option Bool) : Option Bool := if a = b then a else none

/-- The framer ALIGNED at `p` (R88). -/
def Framer.align (fr : Framer) (p : Position) : Framer :=
  let first := statusAt fr.frames p 16
  let second := statusAt fr.frames p 0
  { fr with
    state := .aligned p 0
    sightings := []
    history := [false, false]
    lastPosition := some p
    mimic := false
    bits := { fresh := agreed first.fresh second.fresh, ready := agreed first.ready second.ready,
              pgood := agreed first.pgood second.pgood, busy := agreed first.busy second.busy }
    candidates := second }

/-- The end of a receive frame of slot `n` while its framer is in SEARCH (R85 to R88). -/
def searchFrame (n : Slot) (s : State) : State :=
  let s := modFramer n Framer.sight s
  let fr := (s.slot n).framer
  match fr.acquires s.params.mimicChecking with
  | some p =>
    dispatch n (acquired n (fr.lastPosition != some p) (modFramer n (fun fr => fr.align p) s))
  | none =>
    if fr.refuses s.params.mimicChecking then modFramer n (fun fr => { fr with mimic := true }) s else s

/-! ## Loss of alignment (R90 to R92) -/

/-- The framer back in SEARCH, its last acquired position kept, the out-of-frame reported with its cause, and the search to begin
afresh with the next receive frame (R92; the model's reading: notes/assumptions/11.md): `part` says that a receive frame is in
progress, which the search passes over. -/
def Framer.lose (fr : Framer) (cause : LossCause) (part : Bool) : Framer :=
  { fr with state := .search, sightings := [], history := [], bits := StatusBits.invalid, candidates := StatusBits.invalid,
            frames := [], partFrame := part, lossCause := some cause }

/-- Out-of-frame is declared for slot `n`: the framer, the transaction logic (R104, R111) and the card act in one event. No rule
has the Relink Controller act on the cause (notes/assumptions/40.md). -/
def declareOutOfFrame (n : Slot) (cause : LossCause) (part : Bool) (s : State) : State :=
  let s := modFramer n (fun fr => fr.lose cause part) s
  let s := modLink n (fun l => { l with unlockOwed := false }) (cutOffOutstanding n true s)
  finishLink n (linkLost n s)

/-- Loss of signal is declared: the count stands at its limit until the next transition (R91). -/
def Framer.silenced (fr : Framer) : Framer := { fr with silence := Config.silenceLimit, lossDeclared := true }

/-- The framer's part of a loss of signal in SEARCH: the sightings dropped and the mimic indication lowered (R91). -/
def Framer.silent (fr : Framer) : Framer := { fr with sightings := [], mimic := false }

/-! ## Debouncing and reports (R93, R94) -/

/-- A debounced value after an unerrored multiframe: the bit's value if the candidate agrees with it (R93). -/
def debounced (value candidate bit : Option Bool) : Option Bool :=
  if bit.isSome && candidate == bit then bit else value

/-- The four debounced values after an unerrored multiframe (R93). -/
def StatusBits.debounce (value candidate bit : StatusBits) : StatusBits :=
  { fresh := debounced value.fresh candidate.fresh bit.fresh, ready := debounced value.ready candidate.ready bit.ready,
    pgood := debounced value.pgood candidate.pgood bit.pgood, busy := debounced value.busy candidate.busy bit.busy }

/-- The changes of one multiframe reported together: FRESH first, then READY, PGOOD and BUSY, and the ready timer (R94, R117). -/
def reportChanges (n : Slot) (old new : StatusBits) (before : Bool) (s : State) : State :=
  let s := if new.fresh = some true ∧ old.fresh ≠ some true then freshRise n s else s
  let s := if new.ready = some true ∧ old.ready ≠ some true then readyRise n s else s
  let s := if new.pgood ≠ old.pgood then pgoodChange n (new.pgood == some true) s else s
  readyTimerOnLink n before s

/-! ## Judging a multiframe (R89, R90, R95) -/

/-- The errored history with one more judgement, at most the 4 most recent. -/
def appendJudgement (history : List Bool) (errored : Bool) : List Bool :=
  (history ++ [errored]).drop ((history ++ [errored]).length - 4)

/-- An unerrored multiframe: the bits debounced, their changes reported and acted on, the discarding of a QUARANTINED card's head
(R58) among that, and then the response it carries taken (R95; notes/assumptions/34.md). -/
def unerroredMultiframe (n : Slot) (p : Position) (history : List Bool) (s : State) : State :=
  let fr := (s.slot n).framer
  let seen := statusAt fr.frames p 0
  let new := fr.bits.debounce fr.candidates seen
  let before := s.readyTimerDue n
  let message := (fr.frames[15]?).bind (Resp.ofFrame p)
  let s := modFramer n (fun fr => { fr with state := .aligned p 0, history := history, bits := new, candidates := seen }) s
  match message with
  | none => if new = fr.bits then s else finishLink n (reportChanges n fr.bits new before s)
  | some r => finishLink n (takeResponse n r (checkQuarantinedHead n (reportChanges n fr.bits new before s)))

/-- The end of frame 15 of an aligned multiframe at position `p`. -/
def judgeMultiframe (n : Slot) (p : Position) (s : State) : State :=
  let fr := (s.slot n).framer
  let errored := !wordSeen fr.frames p
  let history := appendJudgement fr.history errored
  if s.params.criterion ≤ history.count true then declareOutOfFrame n .erroredWords false s
  else if errored then
    modFramer n (fun fr =>
      { fr with state := .aligned p 0, history := history, candidates := StatusBits.invalid }) s
  else unerroredMultiframe n p history s

end Sys2Proof.Machine
end

