-- ==== Sys2Proof/Machine/ResetAndLoad.lean ====
section
/-!
DEFINITION. The commands of the reset input and the profile load (section 2.5).
-/

namespace Sys2Proof.Machine

/-- RST_ASSERTED (R33, R34, R63): every block as RST leaves it, a load in progress abandoned, a waiting read answered RETRY. The
PWARN condition follows its line (R162). -/
def execRstAsserted (s : State) : Host.Outcome State Fault Refusal :=
  .next { State.reset with
    port := { State.reset.port with response := if s.port.current.isSome then some .retry else none }
    pacer := { Pacer.reset with pwarn := s.pacer.pwarn }
    pending := s.pending }

/-- RST_DEASSERTED (R34): SCS asserts and the read command is sent, from address 0 with nothing kept. Without RST asserted there
is no deassertion (notes/assumptions/6.md). -/
def execRstDeasserted (s : State) : Host.Outcome State Fault Refusal :=
  let s := beginEvent s
  if s.loader.rstAsserted then
    .next { s with loader := { s.loader with
      rstAsserted := false, scs := true, sent := Config.spiReadCommand, bytes := [], sum := 0 } }
  else .next s

/-- A load is in progress and its header not yet read. -/
def Loader.awaitsHeader (l : Loader) : Bool := l.mode == .loading && l.scs && l.bytes == []

/-- A load is in progress and its header read and good. -/
def Loader.awaitsBody (l : Loader) : Bool := l.mode == .loading && l.scs && l.bytes.length == 6

/-- PROFILE_HEADER_READ (R35): the header is kept and checked; if it is bad the read stops there and the fallback profile is
published (R34, R40). -/
def execProfileHeaderRead (header : Vector Byte 6) (s : State) : Host.Outcome State Fault Refusal :=
  let s := beginEvent s
  if s.loader.awaitsHeader then
    let s := { s with loader := { s.loader with bytes := header.toList, sum := byteSum (header.toList.take 4) } }
    .next (if headerGood header.toList then s else publishOutcome none s)
  else .next s

/-- LOAD_COMPLETE (R35, R36, R39, R40): with the image's remaining bytes in, the sum and the structure are checked and a profile
published. Fewer bytes than the length field asks for leave the read unfinished. -/
def execLoadComplete (body : List Byte) (s : State) : Host.Outcome State Fault Refusal :=
  let s := beginEvent s
  let wanted := imageHalf s.loader.bytes 2 - 6
  if s.loader.awaitsBody ∧ wanted ≤ body.length then
    let img := s.loader.bytes ++ body.take wanted
    let sum := s.loader.sum + byteSum (body.take wanted)
    .next (publishOutcome (profileOf img sum) { s with loader := { s.loader with bytes := img, sum := sum } })
  else .next s

end Sys2Proof.Machine
end

