-- ==== Sys2Proof/Machine/LinkReceive.lean ====
section
/-!
DEFINITION. The commands of the receiving side of a link (chapter 5).
-/

namespace Sys2Proof.Machine

/-- One more frame of the current multiframe received; a multiframe that was not judged gives way to the next. -/
def nextPhase (phase : Nat) : Nat := if phase < 16 then phase + 1 else 1

/-- RECEIVE_FRAME_END (R85 to R88): the frame is taken in; a framer in SEARCH searches, one ALIGNED counts its multiframe's
frames. A frame that was in progress when the search began is only listened to (R92; notes/assumptions/31.md). The receiver takes no
note of its input in LOADING (R83, R91). -/
def execReceiveFrameEnd (n : Slot) (bits : RxFrame) (s : State) : Host.Outcome State Fault Refusal :=
  let s := beginEvent s
  if s.mode = .loading then .next s
  else
    match (s.slot n).framer.state with
    | .search =>
      if (s.slot n).framer.partFrame then .next (modFramer n (fun fr => { fr.listen bits with partFrame := false }) s)
      else .next (searchFrame n (modFramer n (fun fr => fr.receive bits) s))
    | .aligned p phase => .next (modFramer n (fun fr => { fr.receive bits with state := .aligned p (nextPhase phase) }) s)

/-- MULTIFRAME_JUDGED (R89, R90, R93 to R95): the multiframe whose frame 15 has ended is judged. There is none while the framer is
in SEARCH or its multiframe is not complete (notes/assumptions/6.md). -/
def execMultiframeJudged (n : Slot) (s : State) : Host.Outcome State Fault Refusal :=
  let s := beginEvent s
  match (s.slot n).framer.state with
  | .search => .next s
  | .aligned p phase => if s.mode ≠ .loading ∧ phase = 16 then .next (judgeMultiframe n p s) else .next s

/-- LOSS_OF_SIGNAL (R91): the silence count reaches 1024. It is declared once, and not in LOADING. It falls within a receive frame
unless the frames taken in have already brought the count to 1024 (notes/assumptions/31.md). -/
def execLossOfSignal (n : Slot) (s : State) : Host.Outcome State Fault Refusal :=
  let s := beginEvent s
  if s.mode = .loading ∨ (s.slot n).framer.lossDeclared then .next s
  else if s.aligned n then
    .next (declareOutOfFrame n .lossOfSignal ((s.slot n).framer.silence < Config.silenceLimit) (modFramer n Framer.silenced s))
  else .next (modFramer n (fun fr => fr.silenced.silent) s)

end Sys2Proof.Machine
end

