-- ==== Sys2Proof/Machine/LinkTimers.lean ====
section
/-!
DEFINITION. The commands of the sending side of a link and of its transaction timers (chapter 6). An expiry of a timer that is not
running does not happen and changes nothing (R109; notes/assumptions/6.md).
-/

namespace Sys2Proof.Machine

/-- The link at the start of a transmitted multiframe: a send that is due is placed in it and its response timer starts; without
one the multiframe carries no message (R84, R102). A resend of a transaction already answered goes first (R109;
notes/assumptions/32.md). -/
def Link.beginMultiframe (l : Link) : Link :=
  match l.lateSends, l.outstanding with
  | r :: rest, _ => { l with sending := some r, lateSends := rest }
  | [], none => { l with sending := none }
  | [], some t =>
    if t.active && t.sendDue then { l with outstanding := some t.placed, sending := some t.req } else { l with sending := none }

/-- TRANSMIT_MULTIFRAME_START (R84, R102): in LOADING the link transmits idle. -/
def execTransmitMultiframeStart (n : Slot) (s : State) : Host.Outcome State Fault Refusal :=
  let s := beginEvent s
  if s.mode = .loading then .next s else .next (modLink n Link.beginMultiframe s)

/-- RESPONSE_TIMEOUT (R107): a resend while fewer than four sends have been made, else the transaction fails. -/
def execResponseTimeout (n : Slot) (s : State) : Host.Outcome State Fault Refusal :=
  let s := beginEvent s
  match (s.slot n).link.outstanding with
  | none => .next s
  | some t =>
    if t.active && t.response.isRunning then
      if t.sends < Config.maxSends then .next (modLink n (fun l => { l with outstanding := some t.resend }) s)
      else .next (finishLink n (failTransaction n t s))
    else .next s

/-- WAIT_TIMER_EXPIRY (R108): the request is resent with the same tag and a send count of 1. -/
def execWaitTimerExpiry (n : Slot) (s : State) : Host.Outcome State Fault Refusal :=
  let s := beginEvent s
  match (s.slot n).link.outstanding with
  | none => .next s
  | some t =>
    if t.active && t.wait.isRunning then .next (modLink n (fun l => { l with outstanding := some t.resendAfterWait }) s)
    else .next s

/-- COMMIT_LIMIT_EXPIRY (R108): the transaction fails, whatever its other timers stand at. -/
def execCommitLimitExpiry (n : Slot) (s : State) : Host.Outcome State Fault Refusal :=
  let s := beginEvent s
  match (s.slot n).link.outstanding with
  | none => .next s
  | some t => if t.active && t.commit.isRunning then .next (finishLink n (failTransaction n t s)) else .next s

end Sys2Proof.Machine
end

