-- ==== Sys2Proof/Machine/CardTimers.lean ====
section
/-!
DEFINITION. The commands of the card timers (chapter 7). An expiry of a timer that is not running does not happen and changes
nothing (notes/assumptions/6.md).
-/

namespace Sys2Proof.Machine

/-- The ready-limit expiry of an EMPTY slot: a candidate is dropped with its ADOPT, and the identity read is handed over as forced,
unless one is already outstanding (R117, R118; notes/assumptions/18.md). -/
def forceIdentity (n : Slot) (s : State) : State :=
  let s := modCard n (fun c => { c with candidate := none }) s
  if (s.slot n).link.outstanding.any (fun t =>
      match t.source with
      | .relink r => r.what == .identity
      | _ => false) then s
  else handOver n .identity true (withdrawRelink n s)

/-- READY_LIMIT_EXPIRY (R117): the timer stops; in EMPTY the identity read is handed over as forced, elsewhere it is a card
failure. -/
def execReadyLimitExpiry (n : Slot) (s : State) : Host.Outcome State Fault Refusal :=
  let s := beginEvent s
  if (s.slot n).card.ready.isRunning then
    let s := modCard n (fun c => { c with ready := .stopped }) s
    match (s.slot n).card.state with
    | .empty => .next (dispatch n (forceIdentity n s))
    | .lossHold => .next s
    | .quarantined => .next s
    | _ => .next (finishLink n (cardFailure n .readyLimitExpiry s))
  else .next s

/-- HOLD_OFF_EXPIRY (R124): a card in LOSS_HOLD goes to DOWN, expected-restart clear, a new absence period (R125). -/
def execHoldOffExpiry (n : Slot) (s : State) : Host.Outcome State Fault Refusal :=
  let s := beginEvent s
  if (s.slot n).card.state = .lossHold ∧ (s.slot n).card.holdOff.isRunning then
    .next (dispatch n (enterDown n false 0 s))
  else .next s

/-- ABSENCE_LIMIT_EXPIRY (R125): a card in DOWN is quarantined ABSENT. -/
def execAbsenceLimitExpiry (n : Slot) (s : State) : Host.Outcome State Fault Refusal :=
  let s := beginEvent s
  if (s.slot n).card.state = .down ∧ (s.slot n).card.absence.isRunning then .next (finish (quarantine n .absent s))
  else .next s

/-- STABILITY_WINDOW_EXPIRY (R122): the attempt level becomes 0 and the timer stops. -/
def execStabilityWindowExpiry (n : Slot) (s : State) : Host.Outcome State Fault Refusal :=
  let s := beginEvent s
  if (s.slot n).card.state = .inService ∧ (s.slot n).card.stability.isRunning then
    .next (modCard n (fun c => { c with attempt := 0, stability := .stopped }) s)
  else .next s

end Sys2Proof.Machine
end

