-- ==== Sys2Proof/Machine/Accesses.lean ====
section
/-!
DEFINITION. The commands that are accesses of the controller (chapter 4). Each is judged as the access it is, so that an address
or a value that belongs to another row is answered as that row's access.
-/

namespace Sys2Proof.Machine

/-- CONTROLLER_READ (R73): a READ. -/
def execControllerRead (addr : BusAddr) (s : State) : Host.Outcome State Fault Refusal :=
  .next (judge (Access.ofLines (some .read) addr 0) (beginEvent s))

/-- CONTROLLER_WRITE (R72): a WRITE. -/
def execControllerWrite (addr : BusAddr) (value : Word32) (s : State) : Host.Outcome State Fault Refusal :=
  .next (judge (Access.ofLines (some .write) addr value) (beginEvent s))

/-- ORDERED_WRITE (R50, R72): an ORDERED WRITE. -/
def execOrderedWrite (addr : BusAddr) (value : Word32) (s : State) : Host.Outcome State Fault Refusal :=
  .next (judge (Access.ofLines (some .orderedWrite) addr value) (beginEvent s))

/-- LOCKED_READ (R77): a LOCKED READ. -/
def execLockedRead (addr : BusAddr) (s : State) : Host.Outcome State Fault Refusal :=
  .next (judge (Access.ofLines (some .lockedRead) addr 0) (beginEvent s))

/-- LOCKED_WRITE (R79): a LOCKED WRITE. -/
def execLockedWrite (addr : BusAddr) (value : Word32) (s : State) : Host.Outcome State Fault Refusal :=
  .next (judge (Access.ofLines (some .lockedWrite) addr value) (beginEvent s))

/-- READ_BRIDGE_STATUS (R68): a READ of word 3. -/
def execReadBridgeStatus (n : Slot) (s : State) : Host.Outcome State Fault Refusal :=
  .next (judge { kind := some .read, wordForm := true, slot := n, word := 3, value := 0 } (beginEvent s))

/-- HEADER_WORD_FAULT (R65, R66, R68): a write to word 0 or 3, or a read of word 1. -/
def execHeaderWordFault (kind : AccessKind) (addr : BusAddr) (value : Word32) (s : State) : Host.Outcome State Fault Refusal :=
  .next (judge (Access.ofLines (some kind) addr value) (beginEvent s))

/-- NOT_WORD_FORM_ACCESS (R64): a byte, half-word or unaligned access. -/
def execNotWordFormAccess (kind : Option AccessKind) (addr : BusAddr) (value : Word32) (s : State) :
    Host.Outcome State Fault Refusal :=
  .next (judge (Access.ofLines kind addr value) (beginEvent s))

end Sys2Proof.Machine
end

