-- ==== Sys2Proof/Machine/ControlWrites.lean ====
section
/-!
DEFINITION. The commands that are writes to the control word (chapter 8, R66). The command itself takes its effects when the card
acknowledges it, in MULTIFRAME_JUDGED, but for R145.
-/

namespace Sys2Proof.Machine

/-- CLEAR (R136, R58): a write of the CLEAR code to word 1. -/
def execClear (kind : WriteAccess) (n : Slot) (s : State) : Host.Outcome State Fault Refusal :=
  .next (judge (Access.control kind n Command.clear.code) (beginEvent s))

/-- RESTART (R136): a write of the RESTART code to word 1. -/
def execRestart (kind : WriteAccess) (n : Slot) (s : State) : Host.Outcome State Fault Refusal :=
  .next (judge (Access.control kind n Command.restart.code) (beginEvent s))

/-- RETIRE (R136, R58): a write of the RETIRE code to word 1. -/
def execRetire (kind : WriteAccess) (n : Slot) (s : State) : Host.Outcome State Fault Refusal :=
  .next (judge (Access.control kind n Command.retire.code) (beginEvent s))

/-- REBASE (R136): a write of the REBASE code to word 1. -/
def execRebase (kind : WriteAccess) (n : Slot) (s : State) : Host.Outcome State Fault Refusal :=
  .next (judge (Access.control kind n Command.rebase.code) (beginEvent s))

/-- CONTROL_WORD_INVALID_WRITE (R66): a write of the ADOPT code, or of no command code, to word 1. -/
def execControlWordInvalidWrite (kind : WriteAccess) (n : Slot) (value : Word32) (s : State) :
    Host.Outcome State Fault Refusal :=
  .next (judge (Access.control kind n value) (beginEvent s))

end Sys2Proof.Machine
end

