-- ==== Sys2Proof/Machine/PacerEvents.lean ====
section
/-!
DEFINITION. The commands of the Restore Pacer (chapter 10). Outside NORMAL mode the Pacer is idle and keeps only its PWARN condition
following the line (R162, R168).
-/

namespace Sys2Proof.Machine

/-- The effective rate (R163): the base rate divided by two raised to the backoff level, rounded down, at least 1. -/
def State.effectiveRate (s : State) : Nat := max 1 (s.params.baseRate / 2 ^ s.pacer.backoff)

/-- PACER_TICK (R163): with PWARN deasserted the credit accrues up to the cap and granting is considered. -/
def execPacerTick (s : State) : Host.Outcome State Fault Refusal :=
  let s := beginEvent s
  if s.mode = .normal ∧ s.pacer.pwarn = false then
    .next (finish { s with pacer := { s.pacer with credit := min s.params.cap (s.pacer.credit + s.effectiveRate) } })
  else .next s

/-- PWARN_ASSERTED (R166): at a change of the line the credit becomes 0, the backoff level rises by one up to 3, and the quiet
timer stops. -/
def execPwarnAsserted (s : State) : Host.Outcome State Fault Refusal :=
  let s := beginEvent s
  if s.pacer.pwarn then .next s
  else if s.mode = .normal then
    .next { s with pacer := { s.pacer with
      pwarn := true, credit := 0, backoff := min Config.maxBackoff (s.pacer.backoff + 1), quiet := .stopped } }
  else .next { s with pacer := { s.pacer with pwarn := true } }

/-- PWARN_DEASSERTED (R167): at a change of the line the quiet timer starts and granting is considered. -/
def execPwarnDeasserted (s : State) : Host.Outcome State Fault Refusal :=
  let s := beginEvent s
  if s.pacer.pwarn then
    if s.mode = .normal then .next (finish { s with pacer := { s.pacer with pwarn := false, quiet := .running 0 } })
    else .next { s with pacer := { s.pacer with pwarn := false } }
  else .next s

/-- QUIET_INTERVAL_EXPIRY (R167): the backoff level drops by one, and the timer starts again while it is above 0. -/
def execQuietIntervalExpiry (s : State) : Host.Outcome State Fault Refusal :=
  let s := beginEvent s
  if s.mode = .normal ∧ s.pacer.quiet.isRunning then
    .next { s with pacer := { s.pacer with
      backoff := s.pacer.backoff - 1, quiet := if 0 < s.pacer.backoff - 1 then .running 0 else .stopped } }
  else .next s

end Sys2Proof.Machine
end

