-- ==== Sys2Proof/Machine/Clock.lean ====
section
/-!
DEFINITION. The passing of time while no command waits (notes/assumptions/5.md): one REFCLK period, in which every running timer
counts and holds at its limit. An expiry itself is a command.
-/

namespace Sys2Proof.Machine

/-- A transaction's timers one period on (R107, R108). -/
def Txn.advance (t : Txn) : Txn :=
  { t with response := t.response.advance Config.responseLimit, wait := t.wait.advance Config.waitLimit,
           commit := t.commit.advance Config.commitLimit }

/-- A card's timers one period on (R117, R122, R124, R125). -/
def Card.advance (p : Params) (c : Card) : Card :=
  { c with
    holdOff := c.holdOff.advance (p.holdOff * Config.msPeriods)
    absence := c.absence.advance (p.absenceLimit * Config.msPeriods)
    ready := c.ready.advance (p.readyLimit * Config.msPeriods)
    stability := c.stability.advance Config.stabilityWindow }

/-- A slot's timers one period on. -/
def SlotState.advance (p : Params) (x : SlotState) : SlotState :=
  { x with
    card := x.card.advance p
    link := { x.link with outstanding := x.link.outstanding.map Txn.advance } }

/-- One REFCLK period passes. -/
def idle (s : State) : State :=
  { s with
    slots := s.slots.map (SlotState.advance s.params)
    pacer := { s.pacer with quiet := s.pacer.quiet.advance (s.params.quietInterval * Config.msPeriods) } }

end Sys2Proof.Machine
end

