-- ==== Sys2Proof/Machine/Dispatch.lean ====
section
/-! DEFINITION. The meaning of every command, one arm for each. -/

namespace Sys2Proof.Machine

def exec (i : Instr) (s : State) : Host.Outcome State Fault Refusal :=
  match i with
  | .rstAsserted => Sys2Proof.Machine.execRstAsserted s
  | .rstDeasserted => Sys2Proof.Machine.execRstDeasserted s
  | .profileHeaderRead header => Sys2Proof.Machine.execProfileHeaderRead header s
  | .loadComplete body => Sys2Proof.Machine.execLoadComplete body s
  | .receiveFrameEnd n bits => Sys2Proof.Machine.execReceiveFrameEnd n bits s
  | .multiframeJudged n => Sys2Proof.Machine.execMultiframeJudged n s
  | .lossOfSignal n => Sys2Proof.Machine.execLossOfSignal n s
  | .transmitMultiframeStart n => Sys2Proof.Machine.execTransmitMultiframeStart n s
  | .responseTimeout n => Sys2Proof.Machine.execResponseTimeout n s
  | .waitTimerExpiry n => Sys2Proof.Machine.execWaitTimerExpiry n s
  | .commitLimitExpiry n => Sys2Proof.Machine.execCommitLimitExpiry n s
  | .readyLimitExpiry n => Sys2Proof.Machine.execReadyLimitExpiry n s
  | .holdOffExpiry n => Sys2Proof.Machine.execHoldOffExpiry n s
  | .absenceLimitExpiry n => Sys2Proof.Machine.execAbsenceLimitExpiry n s
  | .stabilityWindowExpiry n => Sys2Proof.Machine.execStabilityWindowExpiry n s
  | .controllerRead addr => Sys2Proof.Machine.execControllerRead addr s
  | .controllerWrite addr value => Sys2Proof.Machine.execControllerWrite addr value s
  | .orderedWrite addr value => Sys2Proof.Machine.execOrderedWrite addr value s
  | .lockedRead addr => Sys2Proof.Machine.execLockedRead addr s
  | .lockedWrite addr value => Sys2Proof.Machine.execLockedWrite addr value s
  | .readBridgeStatus n => Sys2Proof.Machine.execReadBridgeStatus n s
  | .headerWordFault kind addr value => Sys2Proof.Machine.execHeaderWordFault kind addr value s
  | .notWordFormAccess kind addr value => Sys2Proof.Machine.execNotWordFormAccess kind addr value s
  | .clear kind n => Sys2Proof.Machine.execClear kind n s
  | .restart kind n => Sys2Proof.Machine.execRestart kind n s
  | .retire kind n => Sys2Proof.Machine.execRetire kind n s
  | .rebase kind n => Sys2Proof.Machine.execRebase kind n s
  | .controlWordInvalidWrite kind n value => Sys2Proof.Machine.execControlWordInvalidWrite kind n value s
  | .pacerTick => Sys2Proof.Machine.execPacerTick s
  | .pwarnAsserted => Sys2Proof.Machine.execPwarnAsserted s
  | .pwarnDeasserted => Sys2Proof.Machine.execPwarnDeasserted s
  | .quietIntervalExpiry => Sys2Proof.Machine.execQuietIntervalExpiry s

end Sys2Proof.Machine
end

