-- ==== Sys2Proof/WellFormed.lean ====
section
/-!
DEFINITION. Which commands are well formed: whether the operands belong to the row of the table that the command stands for. The
machine itself answers an ill-formed access as the access it is (notes/assumptions/1.md).
-/

namespace Sys2Proof

open Sys2Proof.Machine

/-- An access of word form (R61). -/
def aligned (addr : BusAddr) : Bool := isAligned addr

/-- The word of the store or word 2: the words that a row for store accesses takes (R67, R73). -/
def storeOrStatus (addr : BusAddr) : Bool := wordOf addr == 2 || 4 ≤ (wordOf addr).toNat

/-- The rows of a header-word fault (R65, R66, R68): a write of any kind to word 0 or 3, a read or locked read of word 1. -/
def headerFaultRow : AccessKind → BusAddr → Bool
  | .read, addr => wordOf addr == 1
  | .lockedRead, addr => wordOf addr == 1
  | .write, addr => wordOf addr == 0 || wordOf addr == 3
  | .orderedWrite, addr => wordOf addr == 0 || wordOf addr == 3
  | .lockedWrite, addr => wordOf addr == 0 || wordOf addr == 3

/-- The operands of a command belong to its row. -/
def Instr.wellFormed : Instr → Bool
  | .rstAsserted => true
  | .rstDeasserted => true
  | .profileHeaderRead _ => true
  | .loadComplete body => Config.minImage - 6 ≤ body.length && body.length ≤ Config.maxImage - 6
  | .receiveFrameEnd _ _ => true
  | .multiframeJudged _ => true
  | .lossOfSignal _ => true
  | .transmitMultiframeStart _ => true
  | .responseTimeout _ => true
  | .waitTimerExpiry _ => true
  | .commitLimitExpiry _ => true
  | .readyLimitExpiry _ => true
  | .holdOffExpiry _ => true
  | .absenceLimitExpiry _ => true
  | .stabilityWindowExpiry _ => true
  | .controllerRead addr => aligned addr && (wordOf addr == 0 || storeOrStatus addr)
  | .controllerWrite addr _ => aligned addr && storeOrStatus addr
  | .orderedWrite addr _ => aligned addr && storeOrStatus addr
  | .lockedRead addr => aligned addr && wordOf addr != 1
  | .lockedWrite addr _ => aligned addr && storeOrStatus addr
  | .readBridgeStatus _ => true
  | .headerWordFault kind addr _ => aligned addr && headerFaultRow kind addr
  | .notWordFormAccess kind addr _ => kind.isNone || !aligned addr
  | .clear _ _ => true
  | .restart _ _ => true
  | .retire _ _ => true
  | .rebase _ _ => true
  | .controlWordInvalidWrite _ _ value => (commandOf value).isNone
  | .pacerTick => true
  | .pwarnAsserted => true
  | .pwarnDeasserted => true
  | .quietIntervalExpiry => true

/-- The commands that are accesses on the controller's bus (R61). -/
def Instr.isAccess : Instr → Bool
  | .controllerRead _ => true
  | .controllerWrite _ _ => true
  | .orderedWrite _ _ => true
  | .lockedRead _ => true
  | .lockedWrite _ _ => true
  | .readBridgeStatus _ => true
  | .headerWordFault _ _ _ => true
  | .notWordFormAccess _ _ _ => true
  | .clear _ _ => true
  | .restart _ _ => true
  | .retire _ _ => true
  | .rebase _ _ => true
  | .controlWordInvalidWrite _ _ _ => true
  | .rstAsserted => false
  | .rstDeasserted => false
  | .profileHeaderRead _ => false
  | .loadComplete _ => false
  | .receiveFrameEnd _ _ => false
  | .multiframeJudged _ => false
  | .lossOfSignal _ => false
  | .transmitMultiframeStart _ => false
  | .responseTimeout _ => false
  | .waitTimerExpiry _ => false
  | .commitLimitExpiry _ => false
  | .readyLimitExpiry _ => false
  | .holdOffExpiry _ => false
  | .absenceLimitExpiry _ => false
  | .stabilityWindowExpiry _ => false
  | .pacerTick => false
  | .pwarnAsserted => false
  | .pwarnDeasserted => false
  | .quietIntervalExpiry => false

end Sys2Proof
end

