-- ==== Sys2Proof/Safety.lean ====
section
/-!
DEFINITION. What the statements speak of: a command's completion, what a command leaves as it was, and the invariants that
every step keeps.
-/

namespace Sys2Proof.Machine

/-! ## Completion -/

/-- The command `c` answers a next state, and `P` holds of it. -/
def Completes (c : Instr) (s : State) (P : State → Prop) : Prop :=
  ∃ t : State, exec c s = Host.Outcome.next t ∧ P t

/-! ## Frames -/

/-- Everything that belongs to no single slot is as it was, but for the port. -/
def SharedKept (s t : State) : Prop :=
  t.loader = s.loader ∧ t.pool = s.pool ∧ t.wqm = s.wqm ∧ t.rpe = s.rpe ∧ t.pacer = s.pacer ∧ t.pending = s.pending

/-- Every slot but `n` is as it was. -/
def OthersKept (n : Slot) (s t : State) : Prop := ∀ m : Slot, m ≠ n → t.slot m = s.slot m

/-- The port's current access and lock record are as they were. -/
def PortKept (s t : State) : Prop := t.port.current = s.port.current ∧ t.port.lock = s.port.lock

/-- Nothing changes but slot `n`'s framer. -/
def OnlyFramer (n : Slot) (s t : State) : Prop :=
  SharedKept s t ∧ PortKept s t ∧ OthersKept n s t ∧ (t.slot n).link = (s.slot n).link ∧ (t.slot n).card = (s.slot n).card ∧
    (t.slot n).journal = (s.slot n).journal ∧ (t.slot n).queue = (s.slot n).queue

/-- Nothing changes but slot `n`'s transaction logic. -/
def OnlyLink (n : Slot) (s t : State) : Prop :=
  SharedKept s t ∧ PortKept s t ∧ OthersKept n s t ∧ (t.slot n).framer = (s.slot n).framer ∧
    (t.slot n).card = (s.slot n).card ∧ (t.slot n).journal = (s.slot n).journal ∧ (t.slot n).queue = (s.slot n).queue

/-- A queue with every in-flight tag left out: what a dispatch does not change. -/
def untagged (q : List QEntry) : List QEntry := q.map (fun e => { e with tag := none })

/-- What no access changes: the profile and mode, the journal pool, replay and pacing, the commands waiting, every framer and
journal. -/
def AccessFrame (s t : State) : Prop :=
  t.loader = s.loader ∧ t.pool = s.pool ∧ t.rpe = s.rpe ∧ t.pacer = s.pacer ∧ t.pending = s.pending ∧
    ∀ m : Slot, (t.slot m).framer = (s.slot m).framer ∧ (t.slot m).journal = (s.slot m).journal

/-- Every Card Context record is as it was. -/
def CardsKept (s t : State) : Prop := ∀ m : Slot, (t.slot m).card = (s.slot m).card

/-- The queues are as they were, but for in-flight tags, and so are the pool of entries, the numbers and the low mark. -/
def QueuesKept (s t : State) : Prop := t.wqm = s.wqm ∧ ∀ m : Slot, untagged (t.slot m).queue = untagged (s.slot m).queue

/-- The open lock, if there is one, names slot `m`. -/
def State.lockNames (s : State) (m : Slot) : Bool := s.port.lock.any (fun l => l.slot == m)

/-- The lock record is gone and UNLOCK is asked for on slot `m`'s link: owed there, unless one is outstanding already (R80,
R104). -/
def unlockAsked (m : Slot) (s : State) : State :=
  modLink m (fun l => { l with unlockOwed := l.unlockOwed || !l.outstanding.any (fun x => x.source == .unlock) })
    { s with port := { s.port with lock := none } }

/-- Every slot but `n` is wholly as it was, save that of an open lock, whose link is asked for UNLOCK and is as its dispatcher then
leaves it. -/
def OthersKeptButLock (n : Slot) (s t : State) : Prop :=
  ∀ m : Slot, m ≠ n →
    (s.lockNames m = false → t.slot m = s.slot m) ∧
      (s.lockNames m = true → t.slot m = (dispatch m (unlockAsked m s)).slot m)

/-- The access is answered `r` and has no other effect, but that an open lock is abandoned: its slot's link is asked for UNLOCK and
is as its dispatcher then leaves it (R62, R80). -/
def AnswersOnly (c : Instr) (s : State) (r : Response) : Prop :=
  Completes c s (fun t =>
    t.port.response = some r ∧ t.port.current = none ∧ t.port.lock = none ∧ AccessFrame s t ∧ CardsKept s t ∧ QueuesKept s t ∧
      ∀ m : Slot,
        (s.lockNames m = false → t.slot m = s.slot m) ∧
          (s.lockNames m = true → t.slot m = (dispatch m (unlockAsked m s)).slot m))

/-- The access is answered READY and its write joins slot `n`'s queue at the tail as `e`, with the next sequence number and an
entry of the pool (R44); the lock record is closed by a LOCKED entry or abandoned, slot `n`'s dispatcher then considers its link,
and nothing else changes. -/
def JoinsQueue (c : Instr) (n : Slot) (e : QEntry) (s : State) : Prop :=
  Completes c s (fun t =>
    t.port.response = some (.ready none) ∧ t.port.current = none ∧ t.port.lock = none ∧ AccessFrame s t ∧ CardsKept s t ∧
      untagged (t.slot n).queue = untagged (s.slot n).queue ++ [e] ∧
      t.wqm = { free := s.wqm.free - 1, nextSeq := s.wqm.nextSeq + 1, lowMark := s.wqm.lowMark } ∧
      (∀ m : Slot, m ≠ n → untagged (t.slot m).queue = untagged (s.slot m).queue) ∧ OthersKeptButLock n s t ∧
      (t.slot n).link =
        ((if s.lockNames n = true ∧ e.kind ≠ .locked then dispatch n (unlockAsked n s)
          else dispatch n (modQueue n (fun q => q ++ [e]) { s with port := { s.port with lock := none } })).slot n).link)

/-- The read becomes the port's current access, the bus is held, and the READ is pending on slot `n`'s link or started there
(R75, R77), as its dispatcher leaves it; an open lock is abandoned, its own UNLOCK going first, and nothing else changes. -/
def HoldsBus (c : Instr) (n : Slot) (w : WordNo) (lockFlag : Bool) (s : State) : Prop :=
  Completes c s (fun t =>
    t.port.response = none ∧ t.port.current = some { slot := n, word := w, locked := lockFlag } ∧ t.port.lock = none ∧
      ((t.slot n).link.pendingRead = some { word := w, lockFlag := lockFlag } ∨
        (t.slot n).link.outstanding.any (fun x =>
          x.source == .read && x.req.kind == .read && x.req.flag == lockFlag && x.req.word == w) = true) ∧
      AccessFrame s t ∧ CardsKept s t ∧ QueuesKept s t ∧ OthersKeptButLock n s t ∧
      (t.slot n).link =
        (if s.lockNames n = true then
          { ((dispatch n (unlockAsked n s)).slot n).link with pendingRead := some { word := w, lockFlag := lockFlag } }
         else ((dispatch n (modLink n (fun l => { l with pendingRead := some { word := w, lockFlag := lockFlag } })
            { s with port := { s.port with lock := none } })).slot n).link))

/-- One REFCLK period passes for a timer: stopped it stays stopped, running it counts one on and holds at its limit. -/
def TicksOn (limit : Nat) (before after : Timer) : Prop :=
  (before = .stopped → after = .stopped) ∧ ∀ e : Nat, before = .running e → after = .running (min limit (e + 1))

/-- Slot `n`'s link, which stood at `l`, has started a request under its next tag: it is outstanding, ACTIVE, with one send due and
its timers stopped, and a WRITE's tag is the last write tag (R101, R102; how the counter goes on: notes/assumptions/9.md). -/
def LinkStarted (n : Slot) (l : Link) (req : Request) (src : Source) (t : State) : Prop :=
  (t.slot n).link = { l with
    tagCounter := nextTagCounter l.tagCounter l.lastWriteTag
    lastWriteTag := if req.kind = .write then some l.tagCounter else l.lastWriteTag
    outstanding := some { req := req, source := src, active := true, sends := 1, sendDue := true, response := .stopped,
                          wait := .stopped, commit := .stopped } }

/-- What a relink request sends under a tag (R103): the identity READ of word 0, RESTART (code 2) or ADOPT (code 5) written to
word 1, or a replay record written to its word with the release flag clear. -/
def relinkRequest (what : RelinkKind) (tag : Tag) : Request :=
  match what with
  | .identity => { kind := .read, flag := false, tag := tag, word := 0, value := 0 }
  | .restart => { kind := .write, flag := false, tag := tag, word := 1, value := 2 }
  | .adopt => { kind := .write, flag := false, tag := tag, word := 1, value := 5 }
  | .record w v => { kind := .write, flag := false, tag := tag, word := w, value := v }

/-- The WRITE a queue head sends under a tag: its word and value, the release flag set for a LOCKED entry (R51). -/
def headRequest (q : QEntry) (tag : Tag) : Request :=
  { kind := .write, flag := q.kind == .locked, tag := tag, word := q.word, value := q.value }

/-- A SUSPENDED transaction resumed: ACTIVE, its request due with its tag and a send count of 1, its timers stopped (R112). -/
def resumed (x : Txn) : Txn :=
  { x with active := true, sends := 1, sendDue := true, response := .stopped, wait := .stopped, commit := .stopped }

/-- A transaction SUSPENDED: its timers stopped, its send count 0 and nothing due (R111). -/
def suspendedTxn (x : Txn) : Txn :=
  { x with active := false, sends := 0, sendDue := false, response := .stopped, wait := .stopped, commit := .stopped }

/-- A relink request has been handed over on slot `n`'s link: it is pending there, or the link has started it. -/
def HandedOver (n : Slot) (what : RelinkKind) (forced : Bool) (t : State) : Prop :=
  (t.slot n).link.pendingRelink = some { what := what, forced := forced } ∨
    (t.slot n).link.outstanding.any (fun x => x.source == .relink { what := what, forced := forced }) = true

/-- The port has nothing more to do with slot `n`'s card, which has left IN_SERVICE: no read waits on it and no lock is open on it,
and a read that waited on it is answered RETRY (R76, R78, R81, R121). -/
def PortLeft (n : Slot) (s t : State) : Prop :=
  t.port.current.any (fun r => r.slot == n) = false ∧ t.lockNames n = false ∧
    (s.port.current.any (fun r => r.slot == n) = true → t.port.current = none ∧ t.port.response = some .retry)

/-- Slot `n`'s card has taken the card-failure path of R132, to QUARANTINED with reason `r` at the third failure: otherwise to
DOWN, a restart expected and a new absence period begun, its queue kept and no longer in flight, and, on an aligned link, a forced
RESTART handed over and waited for under the ready timer (R126). At a level already 3 the level holds (the model's reading:
notes/assumptions/22.md). -/
def CardFails (n : Slot) (r : Reason) (s t : State) : Prop :=
  (t.slot n).card.wipeOwed = ((s.slot n).card.wipeOwed || (s.slot n).card.replayStarted) ∧
    if (s.slot n).card.attempt < 2 then
      (t.slot n).card.state = .down ∧ (t.slot n).card.attempt = (s.slot n).card.attempt + 1 ∧
        (t.slot n).card.expectedRestart = true ∧ (t.slot n).card.absence = .running 0 ∧
        (t.slot n).queue = untagged (s.slot n).queue ∧ (t.slot n).link.setAside = none ∧
        (t.slot n).card.restartWait = t.aligned n ∧
        (t.aligned n = true → (t.slot n).card.ready.isRunning = true ∧ HandedOver n .restart true t)
    else
      (t.slot n).card.state = .quarantined ∧ (t.slot n).card.attempt = 3 ∧ (t.slot n).card.reason = some r ∧
        (t.slot n).queue = []

/-- Slot `n`'s card holds no channel and no place in the admission order (R156). -/
def ReplayLeft (n : Slot) (t : State) : Prop :=
  n ∉ t.rpe.order ∧ ∀ c : ChannelNo, (t.channel c).any (fun y => y.slot == n) = false

/-- Slot `n`'s card is back in service after a loss, with the suspended write of its queue head resumed on a link that stood at
`l` (R112, R120, R124), or, with an identity read owed (R144; the model's reading: notes/assumptions/35.md), in IDENTIFY. -/
def ReturnedFromLoss (n : Slot) (l : Link) (c : Card) (t : State) : Prop :=
  if c.identityOwed then (t.slot n).card.state = .identify
  else
    (t.slot n).card.state = .inService ∧ (t.slot n).card.holdOff = .stopped ∧ (t.slot n).card.stability = .running 0 ∧
      (t.slot n).card.expectedRestart = false ∧ (t.slot n).card.attempt = c.attempt ∧
      (t.slot n).card.adoptPending = c.adoptPending ∧
      ∀ x ∈ l.outstanding, x.source = .queueHead → x.active = false → (t.slot n).link.outstanding = some (resumed x)

/-! ## What a profile and the received bits say -/

/-- Byte `k` of an image. -/
def byteOf (img : List Byte) (k : Nat) : Nat := (img[k]?.getD 0).toNat

/-- The number in bytes `k` and `k + 1` of an image, most significant first. -/
def pairOf (img : List Byte) (k : Nat) : Nat := 256 * byteOf img k + byteOf img (k + 1)

/-- A value brought into a range: itself inside it, else the bound it lies beyond (R37). -/
def nearest (lo hi v : Nat) : Nat := if v < lo then lo else if hi < v then hi else v

/-- Where entry `k` of an image's kind table begins (section 2.8): the first at byte 85, each other after the 3 bytes of the one
before and 7 for each of its ranges. -/
def kindOffset (img : List Byte) : Nat → Nat
  | 0 => 85
  | k + 1 => kindOffset img k + 3 + 7 * byteOf img (kindOffset img k + 2)

/-- The range that the 7 bytes of a range descriptor give (section 2.8): start word, end word, the class in bits 7 and 6 of byte 4
with the record weight in its bits 3 to 0, and the truncate word, of which 0 is none. -/
def rangeAt (img : List Byte) (k : Nat) : WordRange :=
  { first := pairOf img k
    last := pairOf img (k + 2)
    cls := match byteOf img (k + 4) / 64 with
           | 0 => .keep
           | 1 => .sequence
           | 2 => .live
           | _ => .barred
    weight := byteOf img (k + 4) % 16
    truncate := if pairOf img (k + 5) = 0 then none else some (pairOf img (k + 5)) }

/-- The range that range `j` of entry `k` of an image's kind table describes (section 2.8). -/
def imageRange (img : List Byte) (k : Fin 16) (j : Fin 8) : WordRange := rangeAt img (kindOffset img k.val + 3 + 7 * j.val)

/-- What R36 asks of one range: it lies in the store with its start no greater than its end, and only a SEQUENCE range has a
truncate word, which lies inside it. -/
def GoodRange (r : WordRange) : Prop :=
  4 ≤ r.first ∧ r.first ≤ r.last ∧ r.last ≤ 16383 ∧ ∀ w ∈ r.truncate, r.cls = .sequence ∧ r.first ≤ w ∧ w ≤ r.last

/-- What R35 and R36 ask of an image whose bytes, but bytes 4 and 5, sum to `sum`: the format code, the length and the sum field of
its header; at most 16 kind entries of at most 8 ranges that end exactly at the image's length; different kind codes; good ranges,
no two of one entry with a word in common; and quotas that sum to at most 4096. -/
def GoodImage (img : List Byte) (sum : Nat) : Prop :=
  pairOf img 0 = 0x3260 ∧ (85 ≤ pairOf img 2 ∧ pairOf img 2 ≤ 1029) ∧ sum % 65536 = pairOf img 4 ∧
    byteOf img 84 ≤ 16 ∧ kindOffset img (byteOf img 84) = pairOf img 2 ∧
    (∀ k l : Fin 16, k < l → l.val < byteOf img 84 →
      byteOf img (kindOffset img k.val) ≠ byteOf img (kindOffset img l.val)) ∧
    (∀ k : Fin 16, k.val < byteOf img 84 →
      byteOf img (kindOffset img k.val + 2) ≤ 8 ∧
        (∀ j : Fin 8, j.val < byteOf img (kindOffset img k.val + 2) → GoodRange (imageRange img k j)) ∧
        ∀ i j : Fin 8, i < j → j.val < byteOf img (kindOffset img k.val + 2) →
          (imageRange img k i).last < (imageRange img k j).first ∨ (imageRange img k j).last < (imageRange img k i).first) ∧
    (allSlots.map (fun n => pairOf img (22 + 4 * n.val))).sum ≤ 4096

/-- The bits of frame 0 of a multiframe carry a request in R41's layout after the overhead position 0, each field most significant
bit first: two bits of kind (WRITE 1, READ 2, UNLOCK 3), the flag, eight of tag, fourteen of word and thirty-two of value; the
positions after them are 0. -/
def FrameCarries (bit : Position → Bool) (r : Request) : Prop :=
  [bit 1, bit 2] =
      (match r.kind with
       | .write => [false, true]
       | .read => [true, false]
       | .unlock => [true, true]) ∧
    bit 3 = r.flag ∧ (∀ k : Fin 8, bit (Fin.ofNat 64 (4 + k.val)) = r.tag.getMsbD k.val) ∧
    (∀ k : Fin 14, bit (Fin.ofNat 64 (12 + k.val)) = r.word.getMsbD k.val) ∧
    (∀ k : Fin 32, bit (Fin.ofNat 64 (26 + k.val)) = r.value.getMsbD k.val) ∧ ∀ k : Position, 58 ≤ k.val → bit k = false

/-- Where payload bit `i` of a frame stands whose overhead position is `p`: the positions in order, `p` passed over (R41). -/
def payloadPlace (p : Position) (i : Nat) : Nat := if i < p.val then i else i + 1

/-- Frame 0 of a received multiframe carries a response in R41's layout: three payload bits of kind (ACK 1, DATA 2, NAK 3, WAIT 4),
eight of tag, two of cause and thirty-two of value, each field most significant bit first. -/
def ResponseHeard (p : Position) (f : RxFrame) (r : Resp) : Prop :=
  [f.getLsbD (payloadPlace p 0), f.getLsbD (payloadPlace p 1), f.getLsbD (payloadPlace p 2)] =
      (match r.kind with
       | .ack => [false, false, true]
       | .data => [false, true, false]
       | .nak => [false, true, true]
       | .wait => [true, false, false]) ∧
    (∀ k : Fin 8, f.getLsbD (payloadPlace p (3 + k.val)) = r.tag.getMsbD k.val) ∧
    (∀ k : Fin 2, f.getLsbD (payloadPlace p (11 + k.val)) = r.cause.getMsbD k.val) ∧
    ∀ k : Fin 32, f.getLsbD (payloadPlace p (13 + k.val)) = r.value.getMsbD k.val

/-- A card in state `st` whose debounced bits are `b` is held back (R117). -/
def HeldBack (st : CardState) (b : StatusBits) : Prop :=
  b.ready ≠ some true ∨ b.busy ≠ some false ∨
    ((st = .admitWait ∨ st = .replaying ∨ st = .suspended) ∧ b.pgood ≠ some true)

/-- The state is one of the seven in which a card's ready timer may run (R117). -/
def ReadyTimed (st : CardState) : Prop := st ≠ .lossHold ∧ st ≠ .quarantined

/-- A debounced bit rises: it was not 1 and is 1 now (R94). -/
def Rises (old new : Option Bool) : Prop := old ≠ some true ∧ new = some true

/-- The bit at position `p` of the receive frame that ended `age` frames ago, if the framer has it. -/
def heard (frames : List RxFrame) (age : Nat) (p : Position) : Option Bool := (frames[age]?).map (fun f => f.getLsbD p.val)

/-- The alignment word 1 1 0 1 0 0 1 0 stands at position `p` in every second one of the sixteen frames that end now (R85). -/
def WordHeard (frames : List RxFrame) (p : Position) : Prop :=
  [15, 13, 11, 9, 7, 5, 3, 1].map (fun age => heard frames age p) =
    [some true, some true, some false, some true, some false, some false, some true, some false]

/-- A status bit at an acquisition, carried `age` frames ago in the second of its multiframes: valid with its value if the two
agree, else invalid; its candidate is the second's value (R93). -/
def AcquiredBit (frames : List RxFrame) (p : Position) (age : Nat) (bit candidate : Option Bool) : Prop :=
  candidate = heard frames age p ∧
    bit = if heard frames (age + 16) p = heard frames age p then heard frames age p else none

/-- A status bit after an unerrored multiframe that carried it `age` frames ago: it takes the value carried if its candidate agrees
with that, else it is left as it was; the value carried is the candidate from then on (R93). -/
def DebouncedBit (frames : List RxFrame) (p : Position) (age : Nat) (old oldCandidate bit candidate : Option Bool) : Prop :=
  candidate = heard frames age p ∧
    bit = if heard frames age p ≠ none ∧ oldCandidate = heard frames age p then heard frames age p else old

/-- A channel's step is WAITING or CLAIMED: no record and no ADOPT of it is on the link (R158). -/
def ChannelStep.atBoundary : ChannelStep → Bool
  | .waiting => true
  | .claimed _ => true
  | .sent _ => false
  | .adopting => false

/-- The stamps of the cards in the Replay Engine's keeping: those of the list's entries and of the channels (R149). -/
def State.stampsKept (s : State) : List Nat :=
  s.rpe.list.map (fun e => e.stamp) ++ (s.rpe.channels.toList.filterMap id).map (fun u => u.stamp)

/-- The stamp that a stamp becomes at a renumbering: the cards in keeping are numbered 0, 1, 2 and onward in the order of their
stamps (R149). -/
def State.stampRank (s : State) (stamp : Nat) : Nat := (s.stampsKept.filter (fun x => x < stamp)).length

/-- Slot `n`'s card is due an admission claim: it is the head of the list, FRESH, and a channel is free (R150). -/
def AdmissionDue (n : Slot) (s : State) : Prop :=
  (∃ d : ChannelNo, s.channel d = none) ∧ s.rpe.list.head?.any (fun x => x.slot == n && x.wait == .fresh) = true

/-- The weight at which slot `n`'s card is admitted: its bound kind's, or 0 where the kind has no entry (R30). -/
def admissionWeightOf (n : Slot) (s : State) : Nat := (s.boundKind n).elim 0 (fun k => k.admissionWeight)

/-- The weight at which a record of slot `n`'s card is replayed: that of the record's range (R29). -/
def recordWeightOf (n : Slot) (ix : Fin 8) (s : State) : Nat :=
  (s.boundKind n).elim 0 (fun k => (k.ranges[ix.val]?).elim 0 (fun r => r.weight))

/-! ## Premises of statements -/

/-- The port can take an access: it does not hold the bus, and a profile has been published. -/
def PortOpen (s : State) : Prop := s.port.current = none ∧ s.mode ≠ .loading

/-- No card is waiting for a replay or replaying, and no claim stands. -/
def ReplayIdle (s : State) : Prop :=
  (∀ c : ChannelNo, s.channel c = none) ∧ s.rpe.list = [] ∧ s.pacer.claims = []

/-- Slot `n`'s queue takes one more write (R44). -/
def Roomy (n : Slot) (s : State) : Prop := s.queueDepth n < (s.slotEntry n).queueLimit ∧ 0 < s.wqm.free

/-- The address names word 2, or a word of the store that is not BARRED: what passes steps 1 to 5 of R62 as a store access. -/
def StoreAddress (addr : BusAddr) (s : State) : Prop :=
  isAligned addr = true ∧
    (wordOf addr = 2 ∨ (4 ≤ (wordOf addr).toNat ∧ s.classOf (slotOf addr) (wordOf addr) ≠ .barred))

/-- The class that a write to such an address is queued with (R26, R67, R72). -/
def classAt (addr : BusAddr) (s : State) : RangeClass :=
  if wordOf addr = 2 then .live else s.classOf (slotOf addr) (wordOf addr)

/-- The command that a write of a control command is. -/
def commandInstr (c : Command) (kind : WriteAccess) (n : Slot) : Instr :=
  match c with
  | .clear => .clear kind n
  | .restart => .restart kind n
  | .retire => .retire kind n
  | .rebase => .rebase kind n

/-- The journal's free count, free list, free marks and lists agree about slot `n`'s entries, with no error reported (R1,
R24). -/
def BookkeepingGood (n : Slot) (s : State) : Prop :=
  s.partFault = false ∧ s.pool.freeCount = s.pool.freeList.length ∧ s.pool.freeList.Nodup ∧
    (∀ i ∈ s.pool.freeList, s.pool.isFree i = true) ∧ ((s.slot n).journal.map (fun h => h.id)).Nodup ∧
    (∀ h ∈ (s.slot n).journal, s.pool.isFree h.id = false) ∧
    s.pool.freeCount + (s.slot n).journal.length ≤ Config.journalPool

/-! ## Invariants -/

/-- The published parameters lie in their ranges (R32). -/
def Params.InRange (p : Params) : Prop :=
  (2 ≤ p.criterion ∧ p.criterion ≤ 4) ∧ (5 ≤ p.holdOff ∧ p.holdOff ≤ 200) ∧
    (1000 ≤ p.absenceLimit ∧ p.absenceLimit ≤ 60000) ∧ (100 ≤ p.readyLimit ∧ p.readyLimit ≤ 2000) ∧
    (1 ≤ p.baseRate ∧ p.baseRate ≤ 1023) ∧ (16 ≤ p.cap ∧ p.cap ≤ 16383) ∧
    (100 ≤ p.quietInterval ∧ p.quietInterval ≤ 10000)

/-- A slot table's entry lies in its ranges (R31). -/
def SlotEntry.InRange (e : SlotEntry) : Prop :=
  e.priority ≤ 3 ∧ (1 ≤ e.queueLimit ∧ e.queueLimit ≤ 64) ∧ e.quota ≤ 4096

/-- The parameter block and every slot's entry of the slot table are in range, the credit lies between 0 and the cap, the backoff
level between 0 and 3, and no claim costs more than the cap (R31, R32, R37, R162, R164). -/
def PacerInBounds (s : State) : Prop :=
  s.params.InRange ∧ (∀ n : Slot, (s.slotEntry n).InRange) ∧ s.pacer.credit ≤ s.params.cap ∧ s.pacer.backoff ≤ 3 ∧ ∀ c ∈ s.pacer.claims, c.cost ≤ s.params.cap

/-- One slot's counters lie in their ranges (R7, R83, R85, R100, R115). -/
def SlotState.CountersInBounds (x : SlotState) : Prop :=
  x.card.attempt ≤ 3 ∧ x.card.nakCount ≤ 8 ∧ x.framer.history.length ≤ 4 ∧ x.framer.silence ≤ 1024 ∧
    (∀ y ∈ x.framer.sightings, y.age ≤ 32) ∧ (∀ t ∈ x.link.outstanding, t.sends ≤ 4) ∧ (∀ t ∈ x.link.setAside, t.sends ≤ 4)

/-- Every slot's counters lie in their ranges. -/
def CountersInBounds (s : State) : Prop := ∀ n : Slot, (s.slot n).CountersInBounds

/-- A card holds a replay channel exactly when it is REPLAYING, and one channel at most (R148). -/
def ChannelsConsistent (s : State) : Prop :=
  (∀ n : Slot, (∃ c : ChannelNo, (s.channel c).any (fun u => u.slot == n) = true) ↔ (s.slot n).card.state = .replaying) ∧
    ∀ c d : ChannelNo, ∀ u ∈ s.channel c, ∀ v ∈ s.channel d, u.slot = v.slot → c = d

/-- A card is on the Admission List exactly when it is ADMIT_WAIT or SUSPENDED, once, with wait kind FRESH in the first and
RESUME in the second (R148, R161). -/
def ListConsistent (s : State) : Prop :=
  (∀ n : Slot, n ∈ s.rpe.list.map (fun e => e.slot) ↔
      ((s.slot n).card.state = .admitWait ∨ (s.slot n).card.state = .suspended)) ∧
    (s.rpe.list.map (fun e => e.slot)).Nodup ∧
    ∀ e ∈ s.rpe.list, e.wait = (if (s.slot e.slot).card.state = .admitWait then .fresh else .resume)

/-- The admission order holds exactly the slots of the REPLAYING cards, each once (R148). -/
def OrderConsistent (s : State) : Prop :=
  (∀ n : Slot, n ∈ s.rpe.order ↔ (s.slot n).card.state = .replaying) ∧ s.rpe.order.Nodup

/-- The cards' places in the Replay Engine agree with their states (R148). -/
def ReplayConsistent (s : State) : Prop := ChannelsConsistent s ∧ ListConsistent s ∧ OrderConsistent s

/-- The link of every card in the Replay Engine's keeping is aligned: an out-of-frame takes the card out of it (R131, R132). -/
def KeepingAligned (s : State) : Prop := ∀ n : Slot, (s.slot n).card.state.inKeeping = true → s.aligned n = true

/-- The Admission List stands in order: each entry's class is better than that of every entry behind it, or the same and its stamp
earlier (R149). -/
def ListInOrder (s : State) : Prop :=
  s.rpe.list.Pairwise (fun x y => x.priority < y.priority ∨ (x.priority = y.priority ∧ x.stamp < y.stamp))

/-- The cards in keeping hold different stamps, all given before the arrival counter's value, which is at most 65535 (R147,
R149). -/
def StampsInOrder (s : State) : Prop := s.stampsKept.Nodup ∧ (∀ k ∈ s.stampsKept, k < s.rpe.arrival) ∧ s.rpe.arrival ≤ 65535

/-- Every write not yet retired holds one of the 512 sequence numbers that end just before the next one (R45). -/
def NumbersRecent (s : State) : Prop :=
  ∀ n : Slot, ∀ q ∈ (s.slot n).queue, 1 ≤ (s.wqm.nextSeq - q.seq).toNat ∧ (s.wqm.nextSeq - q.seq).toNat ≤ 512

/-- The low mark is the next sequence number while no write is queued, and else the earliest of the queues' heads' numbers by R45's
comparison (R47). -/
def LowMarkRight (s : State) : Prop :=
  ((∀ n : Slot, (s.slot n).queue.head? = none) → s.wqm.lowMark = s.wqm.nextSeq) ∧
    ((∃ n : Slot, (s.slot n).queue.head? ≠ none) →
      (∃ n : Slot, ∃ q ∈ (s.slot n).queue.head?, q.seq = s.wqm.lowMark) ∧
        ∀ n : Slot, ∀ q ∈ (s.slot n).queue.head?,
          q.seq = s.wqm.lowMark ∨ (1 ≤ (q.seq - s.wqm.lowMark).toNat ∧ (q.seq - s.wqm.lowMark).toNat ≤ 32767))

/-- No request that may go waits on any link: every dispatcher would leave the state as it is (R102). -/
def NothingToStart (s : State) : Prop := ∀ n : Slot, dispatch n s = s

/-- Nothing is left for the Replay Engine or the Pacer to do (R150 to R159, R165). -/
def NothingToConsider (s : State) : Prop := consider s = none

/-- A card's journal count never exceeds its quota; outside NORMAL mode the journal pool is entirely free and no journal is
INCOMPLETE (R6, R8, R25). -/
def JournalInBounds (s : State) : Prop :=
  (∀ n : Slot, s.journalCount n ≤ (s.slotEntry n).quota) ∧
    (s.mode ≠ .normal → s.pool = Pool.allFree ∧ ∀ n : Slot, (s.slot n).journal = [] ∧ (s.slot n).card.incomplete = false)

/-- The pool entries in the sixteen journal lists, slot 0's first. -/
def State.heldEntries (s : State) : List EntryId := (allSlots.map (fun n => (s.slot n).journal.map (fun h => h.id))).flatten

/-- The journal's books are in order (R1, R24, R31): the free count is the number of free entries, exactly the free entries are
marked free, every entry of the pool is free or stands in one list, once, and the quotas add to 4096 at most. -/
def PoolWhole (s : State) : Prop :=
  s.pool.freeCount = s.pool.freeList.length ∧ (∀ i : EntryId, s.pool.isFree i = true ↔ i ∈ s.pool.freeList) ∧
    (s.pool.freeList ++ s.heldEntries).Nodup ∧ s.pool.freeCount + s.heldEntries.length = Config.journalPool ∧
    (allSlots.map (fun n => (s.slotEntry n).quota)).sum ≤ Config.journalPool

/-- The depths of all the queues added. -/
def State.queuedEntries (s : State) : Nat := (allSlots.map (fun n => s.queueDepth n)).sum

/-- No queue is deeper than its limit, the queues' entries and the free ones make up the pool of 512, and in LOADING every queue
is empty (R42). -/
def QueuesInBounds (s : State) : Prop :=
  (∀ n : Slot, s.queueDepth n ≤ (s.slotEntry n).queueLimit) ∧ s.wqm.free + s.queuedEntries = Config.queuePool ∧
    (s.mode = .loading → ∀ n : Slot, (s.slot n).queue = [])

/-- A waiting read and an open lock each name a card that is IN_SERVICE (R76, R81). -/
def PortInService (s : State) : Prop :=
  (∀ r ∈ s.port.current, (s.slot r.slot).card.state = .inService) ∧
    ∀ l ∈ s.port.lock, (s.slot l.slot).card.state = .inService

/-- Outside NORMAL mode no card is in the Replay Engine's keeping by channel or list, and the Pacer is idle (R147, R160, R162,
R168). -/
def IdleOutsideNormal (s : State) : Prop :=
  s.mode ≠ .normal →
    ReplayIdle s ∧ s.rpe.order = [] ∧ s.pacer.credit = 0 ∧ s.pacer.backoff = 0 ∧ s.pacer.quiet = .stopped

/-- No link's tag counter stands at its last write tag (R101). -/
def TagsApart (s : State) : Prop := ∀ n : Slot, (s.slot n).link.lastWriteTag ≠ some (s.slot n).link.tagCounter

/-- What a safe run keeps: every invariant above. -/
def Safe (s : State) : Prop :=
  PacerInBounds s ∧ CountersInBounds s ∧ ReplayConsistent s ∧ JournalInBounds s ∧ PoolWhole s ∧ QueuesInBounds s ∧
    PortInService s ∧ IdleOutsideNormal s ∧ TagsApart s ∧ KeepingAligned s ∧ ListInOrder s ∧ StampsInOrder s ∧ LowMarkRight s ∧
    NothingToStart s ∧ NothingToConsider s ∧ s.partFault = false

end Sys2Proof.Machine
end

