-- ==== Sys2Proof/Certificates/Slice0/Obligations.lean ====
section
/-!
DEFINITION. The statements for the provers. Each docstring names the rules of spec/ it speaks of; "the model's choice" marks what
rests on an entry of notes/assumptions.
-/

open Sys2Proof Sys2Proof.Machine

/-! ## The queue of commands -/

/-- A step executes the command at the front of the queue on the state with the queue's rest. -/
def Obligations.StepRunsFrontCommand : Prop :=
  ∀ (s : State) (c : Instr) (rest : List Instr),
    s.pending = c :: rest → step s = exec c { s with pending := rest }

/-- With no command waiting, one REFCLK period passes: every running timer counts one on and holds at its limit, a stopped one
stays stopped, and nothing but timers changes (the model's choice: notes/assumptions/5.md). The limits in REFCLK periods, of the
response, WAIT, commit, hold-off, absence, ready, stability and quiet timers, are those of R107, R108, R117, R122, R124, R125 and
R167. -/
def Obligations.IdleStepOnlyAdvancesTimers : Prop :=
  ∀ (s : State) (n : Slot),
    s.pending = [] →
      ∃ t : State, step s = Host.Outcome.next t ∧
        t.loader = s.loader ∧ t.pool = s.pool ∧ t.wqm = s.wqm ∧ t.port = s.port ∧ t.rpe = s.rpe ∧ t.partFault = s.partFault ∧
        t.pending = [] ∧ { t.pacer with quiet := s.pacer.quiet } = s.pacer ∧
        TicksOn (s.params.quietInterval * 16384) s.pacer.quiet t.pacer.quiet ∧
        (t.slot n).framer = (s.slot n).framer ∧ (t.slot n).journal = (s.slot n).journal ∧
        (t.slot n).queue = (s.slot n).queue ∧
        { (t.slot n).card with
            holdOff := (s.slot n).card.holdOff, absence := (s.slot n).card.absence, ready := (s.slot n).card.ready,
            stability := (s.slot n).card.stability } = (s.slot n).card ∧
        TicksOn (s.params.holdOff * 16384) (s.slot n).card.holdOff (t.slot n).card.holdOff ∧
        TicksOn (s.params.absenceLimit * 16384) (s.slot n).card.absence (t.slot n).card.absence ∧
        TicksOn (s.params.readyLimit * 16384) (s.slot n).card.ready (t.slot n).card.ready ∧
        TicksOn 163840000 (s.slot n).card.stability (t.slot n).card.stability ∧
        { (t.slot n).link with outstanding := (s.slot n).link.outstanding } = (s.slot n).link ∧
        (t.slot n).link.outstanding.isSome = (s.slot n).link.outstanding.isSome ∧
        ∀ x ∈ (s.slot n).link.outstanding, ∀ y ∈ (t.slot n).link.outstanding,
          { y with response := x.response, wait := x.wait, commit := x.commit } = x ∧
            TicksOn 32768 x.response y.response ∧ TicksOn 3277 x.wait y.wait ∧ TicksOn 819200 x.commit y.commit

/-- Every command completes in every state, and leaves the commands behind it in the queue as they were. That one whose event
cannot happen in the state completes without effect, and so does an access while the bus is held, is the model's reading
(notes/assumptions/6.md, notes/assumptions/7.md). -/
def Obligations.EveryCommandCompletes : Prop :=
  ∀ (s : State) (c : Instr), Completes c s (fun t => t.pending = s.pending)

/-! ## Invariants -/

/-- R162, R164, R31, R32, R37: every step keeps the credit between 0 and the cap, the backoff level between 0 and 3, every claim's
cost at most the cap, and the parameter block and the slot table in their ranges. Before a publication both hold the fallback
profile's numbers, which is the model's choice (notes/assumptions/4.md). -/
def Obligations.PacerStaysInBounds : Prop :=
  ∀ s t : State, PacerInBounds s → step s = Host.Outcome.next t → PacerInBounds t

/-- R115, R7, R83, R85, R91, R100: every step keeps attempt levels, refusal counts, send counts, errored histories, silence
counts and sightings' ages in their ranges. -/
def Obligations.CountersStayInBounds : Prop :=
  ∀ s t : State, CountersInBounds s → step s = Host.Outcome.next t → CountersInBounds t

/-- R148: every step keeps the channels, the Admission List and the admission order in agreement with the cards' states; and it
keeps the link of every card in the Replay Engine's keeping aligned, an out-of-frame taking the card out of it (R131, R132). -/
def Obligations.ReplayPlacesStayConsistent : Prop :=
  ∀ s t : State, ReplayConsistent s → step s = Host.Outcome.next t →
    ReplayConsistent t ∧ (KeepingAligned s → KeepingAligned t)

/-- R6, R25, R1, R24: every step keeps each journal within its quota, and the journal entirely free outside NORMAL mode; and it
keeps the books of the pool in order: the free count the number of free entries, exactly the free ones marked free, and every entry
free or in one journal list, once. -/
def Obligations.JournalsStayWithinQuota : Prop :=
  ∀ s t : State, JournalInBounds s → step s = Host.Outcome.next t →
    JournalInBounds t ∧ (PoolWhole s → PoolWhole t)

/-- R42: every step keeps each queue within its limit and all of them within the pool of 512, none lost and none made up. -/
def Obligations.QueuesStayWithinPool : Prop :=
  ∀ s t : State, QueuesInBounds s → step s = Host.Outcome.next t → QueuesInBounds t

/-- R76, R81, R121: at every step a waiting read and an open lock name cards that are IN_SERVICE. -/
def Obligations.PortNamesCardsInService : Prop :=
  ∀ s t : State, PortInService s → step s = Host.Outcome.next t → PortInService t

/-- R160, R168: every step keeps the channels, the list and the Pacer empty outside NORMAL mode. -/
def Obligations.NothingReplaysOutsideNormal : Prop :=
  ∀ s t : State, IdleOutsideNormal s → step s = Host.Outcome.next t → IdleOutsideNormal t

/-- R101: every step keeps each link's tag counter off its last write tag, so that a new WRITE never carries the tag of the WRITE
before it (how the counter passes over it: notes/assumptions/9.md). -/
def Obligations.NextTagIsNeverLastWriteTag : Prop :=
  ∀ s t : State, TagsApart s → step s = Host.Outcome.next t → TagsApart t

/-- The state right after reset meets every invariant, with nothing left to start on a link or to consider. That the parameter
block and the slot table are in range in it, before any publication, is the model's choice (notes/assumptions/4.md). -/
def Obligations.ResetMeetsEveryInvariant : Prop := Safe State.reset

/-! ## Reset, load and part mode -/

/-- R8, R33, R42, R45, R47, R61, R83, R100, R115, R147, R162: what RST leaves in every block, and in every slot its framer, link
record, Card Context record, journal and queue, field by field. -/
def Obligations.ResetLeavesEveryBlockEmpty : Prop :=
  State.reset.mode = .loading ∧ State.reset.pending = [] ∧ State.reset.attn = false ∧ State.reset.partFault = false ∧
    State.reset.pool.freeCount = 4096 ∧ State.reset.pool.freeList.length = 4096 ∧ State.reset.pool.keepMap = [] ∧
    (∀ i : EntryId, State.reset.pool.isFree i = true) ∧
    State.reset.wqm = { free := 512, nextSeq := 0, lowMark := 0 } ∧
    State.reset.port = { current := none, lock := none, response := none } ∧
    State.reset.rpe = { channels := Vector.replicate 4 none, list := [], order := [], arrival := 0 } ∧
    State.reset.pacer.credit = 0 ∧ State.reset.pacer.backoff = 0 ∧ State.reset.pacer.quiet = .stopped ∧
    State.reset.pacer.claims = [] ∧
    ∀ n : Slot, State.reset.slot n =
      { framer := { state := .search, sightings := [], history := [], lastPosition := none, mimic := false,
                    bits := { fresh := none, ready := none, pgood := none, busy := none },
                    candidates := { fresh := none, ready := none, pgood := none, busy := none }, silence := 0,
                    lossDeclared := false, partFrame := false, lossCause := none, lastBit := none, frames := [] }
        link := { tagCounter := 0, lastWriteTag := none, outstanding := none, setAside := none, pendingRelink := none,
                  unlockOwed := false, pendingRead := none, sending := none, lateSends := [] }
        card := { state := .empty, bound := none, candidate := none, incomplete := false, nakCount := 0, sinceResume := 0,
                  replayStarted := false, attempt := 0, reason := none, expectedRestart := false, wipeOwed := false,
                  adoptPending := false, identityOwed := false, refused := false, retired := false, restartWait := false,
                  holdOff := .stopped, absence := .stopped, absenceKept := none, ready := .stopped, stability := .stopped }
        journal := []
        queue := [] }

/-- R33, R39: the part mode and the published profile change only as the mode table gives: RST leads to LOADING from any mode; a
finished load leads from LOADING to NORMAL or UNPROTECTED; a part-level fault leads from NORMAL to UNPROTECTED, and there is none
where the journal's books are in order and every journal is within its quota (R24); nothing else changes the mode, and out of
LOADING nothing but RST changes the profile. -/
def Obligations.PartModeFollowsItsTable : Prop :=
  ∀ (s t : State) (c : Instr),
    exec c s = Host.Outcome.next t →
      (c = .rstAsserted → t.mode = .loading) ∧
      (c ≠ .rstAsserted → s.mode = .unprotected → t.mode = .unprotected) ∧
      (c ≠ .rstAsserted → s.mode = .normal → t.mode = .normal ∨ t.mode = .unprotected) ∧
      (c ≠ .rstAsserted → s.mode = .normal → JournalInBounds s → PoolWhole s → t.mode = .normal) ∧
      (s.mode = .loading → t.mode ≠ .loading → (∃ h, c = .profileHeaderRead h) ∨ ∃ b, c = .loadComplete b) ∧
      (c ≠ .rstAsserted → s.mode ≠ .loading → t.loader.profile = s.loader.profile)

/-- R33, R34, R63 (RST_ASSERTED): the part is LOADING, a load in progress is abandoned, a waiting read is answered RETRY with its
access and the lock record gone, and every block stands as RST leaves it, the PWARN condition following its line (the order of the
free list is the model's choice: notes/assumptions/39.md). -/
def Obligations.AssertedResetClearsEveryBlock : Prop :=
  ∀ s : State,
    Completes .rstAsserted s (fun t =>
      t.mode = .loading ∧ t.loader.rstAsserted = true ∧ t.loader.scs = false ∧ t.loader.bytes = [] ∧
        t.pool = State.reset.pool ∧ t.wqm = State.reset.wqm ∧ t.port.current = none ∧ t.port.lock = none ∧
        t.port.response = (if s.port.current.isSome then some .retry else none) ∧ t.slots = State.reset.slots ∧
        t.rpe = State.reset.rpe ∧ t.pacer = { State.reset.pacer with pwarn := s.pacer.pwarn } ∧ t.pending = s.pending)

/-- R34, R35, R40 (RST_DEASSERTED, PROFILE_HEADER_READ): the load begins with SCS asserted, the read command 0x03 and a 24-bit
address of zero sent and nothing kept; a header is kept and its bytes 0 to 3 begin the sum; one with the format code 0x3260 and a
length of 85 to 1029 lets the load go on, and any other publishes the fallback profile in UNPROTECTED mode. -/
def Obligations.LoadBeginsAndChecksTheHeader : Prop :=
  ∀ (s : State) (h : Vector Byte 6),
    (s.loader.rstAsserted = true →
      Completes .rstDeasserted s (fun t =>
        t.loader = { s.loader with rstAsserted := false, scs := true, sent := [3, 0, 0, 0], bytes := [], sum := 0 } ∧
          t.slots = s.slots ∧ t.pool = s.pool ∧ t.wqm = s.wqm ∧ t.rpe = s.rpe ∧ t.pacer = s.pacer)) ∧
    (s.mode = .loading → s.loader.scs = true → s.loader.bytes = [] →
      Completes (.profileHeaderRead h) s (fun t =>
        t.loader.bytes = h.toList ∧ t.loader.sum = h[0].toNat + h[1].toNat + h[2].toNat + h[3].toNat ∧
          t.slots = s.slots ∧ t.pool = s.pool ∧ t.wqm = s.wqm ∧ t.rpe = s.rpe ∧
          if 256 * h[0].toNat + h[1].toNat = 0x3260 ∧ 85 ≤ 256 * h[2].toNat + h[3].toNat ∧
              256 * h[2].toNat + h[3].toNat ≤ 1029 then
            t.mode = .loading ∧ t.loader.scs = true ∧ t.loader.profile = s.loader.profile ∧ t.pacer = s.pacer
          else
            t.mode = .unprotected ∧ t.loader.scs = false ∧ t.loader.profile =
              { params := { criterion := 3, mimicChecking := false, holdOff := 50, absenceLimit := 10000, readyLimit := 1000,
                            baseRate := 1, cap := 16, quietInterval := 100 },
                slots := Vector.replicate 16 { priority := 3, queueLimit := 32, quota := 0, likeReplacement := false },
                kinds := [] }))

/-- R35, R36, R39, R40 (LOAD_COMPLETE): once the image's bytes are in, their sum is carried on over every byte but bytes 4 and 5; a
profile whose sum, modulo 65536, is the sum field and whose structure is valid is published in NORMAL mode; any other image, and so
any whose sum differs, publishes the fallback profile, given in numbers, in UNPROTECTED mode. An image of the length its header
gives is published in NORMAL mode exactly when it passes each check of R35 and R36. The Pacer stands at credit 0 and backoff level
0 with its quiet timer stopped and no claim. -/
def Obligations.LoadCompletePublishes : Prop :=
  ∀ (s : State) (body : List Byte) (img : List Byte) (sum : Nat) (fallback : Profile),
    s.mode = .loading → s.loader.scs = true → s.loader.bytes.length = 6 →
      imageHalf s.loader.bytes 2 - 6 ≤ body.length →
      img = s.loader.bytes ++ body.take (imageHalf s.loader.bytes 2 - 6) →
      sum = s.loader.sum + byteSum (body.take (imageHalf s.loader.bytes 2 - 6)) →
      fallback =
        { params := { criterion := 3, mimicChecking := false, holdOff := 50, absenceLimit := 10000, readyLimit := 1000,
                      baseRate := 1, cap := 16, quietInterval := 100 },
          slots := Vector.replicate 16 { priority := 3, queueLimit := 32, quota := 0, likeReplacement := false },
          kinds := [] } →
      Completes (.loadComplete body) s (fun t =>
        t.loader.scs = false ∧ t.slots = s.slots ∧ t.pool = s.pool ∧ t.wqm = s.wqm ∧ t.rpe = s.rpe ∧
          t.pacer = { credit := 0, backoff := 0, quiet := .stopped, pwarn := s.pacer.pwarn, claims := [] } ∧
          t.loader.bytes = img ∧ t.loader.sum = sum ∧
          t.loader.profile = (profileOf img sum).getD fallback ∧
          t.mode = (if (profileOf img sum).isSome then .normal else .unprotected) ∧
          (img.length = pairOf img 2 → (t.mode = .normal ↔ GoodImage img sum)) ∧
          (sum % 65536 ≠ 256 * (img[4]?.getD 0).toNat + (img[5]?.getD 0).toNat →
            t.mode = .unprotected ∧ t.loader.profile = fallback))

/-- R28, R29, R31, R32, R36, R37: a profile that passes the Loader's checks has every number in its range. Each number of the
parameter block and the slot table is the image's own where that is in range and the nearest bound where it is not, and a quota is
as read. The kind table has as many entries as byte 84 says: they stand one after another from byte 85 to the end of the image,
each with its code, its admission weight and as many ranges as its third byte says, and each range is its descriptor's: start and
end word, class, record weight and truncate word as read. The quotas sum to at most 4096, the kind codes are distinct, and the
ranges lie in the store, do not overlap, and hold their truncate words. And an image of the length its header gives is accepted
exactly when it passes every check of R35 and R36. -/
def Obligations.AcceptedProfileIsInRange : Prop :=
  ∀ (img : List Byte) (sum : Nat) (p : Profile),
    (img.length = pairOf img 2 → ((profileOf img sum).isSome = true ↔ GoodImage img sum)) ∧
    (profileOf img sum = some p →
      p.params.InRange ∧ (∀ n : Slot, (p.slots[n.val]).InRange) ∧
        { p.params with mimicChecking := false } =
          { criterion := nearest 2 4 (byteOf img 6), mimicChecking := false, holdOff := nearest 5 200 (pairOf img 8),
            absenceLimit := nearest 1000 60000 (pairOf img 10), readyLimit := nearest 100 2000 (pairOf img 12),
            baseRate := nearest 1 1023 (pairOf img 14), cap := nearest 16 16383 (pairOf img 16),
            quietInterval := nearest 100 10000 (pairOf img 18) } ∧
        (∀ n : Slot, (p.slots[n.val]).priority = nearest 0 3 (byteOf img (20 + 4 * n.val) % 8) ∧
          (p.slots[n.val]).queueLimit = nearest 1 64 (byteOf img (21 + 4 * n.val)) ∧
          (p.slots[n.val]).quota = pairOf img (22 + 4 * n.val)) ∧
        p.kinds.length = byteOf img 84 ∧ (img.length = pairOf img 2 → kindOffset img p.kinds.length = img.length) ∧
        (∀ k : Fin 16, ∀ e ∈ p.kinds[k.val]?,
          e.code.toNat = byteOf img (kindOffset img k.val) ∧ e.admissionWeight = byteOf img (kindOffset img k.val + 1) ∧
            e.ranges.length = byteOf img (kindOffset img k.val + 2) ∧
            ∀ j : Fin 8, ∀ r ∈ e.ranges[j.val]?, r = rangeAt img (kindOffset img k.val + 3 + 7 * j.val)) ∧
        (p.slots.toList.map (fun e => e.quota)).sum ≤ 4096 ∧ p.kinds.length ≤ 16 ∧
        (p.kinds.map (fun k => k.code)).Nodup ∧
        ∀ k ∈ p.kinds, k.admissionWeight ≤ 255 ∧ k.ranges.length ≤ 8 ∧
          k.ranges.Pairwise (fun a b => a.last < b.first ∨ b.last < a.first) ∧
          ∀ r ∈ k.ranges, 4 ≤ r.first ∧ r.first ≤ r.last ∧ r.last ≤ 16383 ∧ r.weight ≤ 15 ∧
            ∀ w ∈ r.truncate, r.cls = .sequence ∧ r.first ≤ w ∧ w ≤ r.last)

/-- R38: the mimic checking field is on when its byte holds any nonzero value and off when it holds 0; the like replacement
permission of a slot is permitted when its bit is 1 and not permitted when it is 0. -/
def Obligations.MimicAndLikeReplacementAreRead : Prop :=
  ∀ (img : List Byte) (sum : Nat) (p : Profile),
    profileOf img sum = some p →
      (p.params.mimicChecking = true ↔ (img[7]?.getD 0) ≠ 0) ∧
        ∀ n : Slot, (p.slots[n.val]).likeReplacement = (img[20 + 4 * n.val]?.getD 0).getLsbD 7

/-! ## Classes and the Restore Journal -/

/-- R26: the class of a store word: LIVE in UNPROTECTED mode, with no bound identity, with no kind entry or in no range; else the
class of the range that contains it, whose position is its range index. -/
def Obligations.ClassFollowsTheBoundKind : Prop :=
  ∀ (s : State) (n : Slot) (w : WordNo) (k : KindEntry) (r : WordRange),
    (s.mode = .unprotected → s.classOf n w = .live) ∧
    ((s.slot n).card.bound = none → s.classOf n w = .live) ∧
    (s.boundKind n = none → s.classOf n w = .live) ∧
    (s.boundKind n = some k → (∀ x ∈ k.ranges, x.covers w = false) → s.classOf n w = .live) ∧
    (s.mode ≠ .unprotected → s.boundKind n = some k → k.ranges.length ≤ 8 → rangesApart k.ranges = true → r ∈ k.ranges →
      r.covers w = true →
        s.classOf n w = r.cls ∧ ∃ ix : Fin 8, s.rangeOf n w = some (ix, r) ∧ k.ranges[ix.val]? = some r)

/-- R1, R24: an allocation takes the first free entry for the tail of the list, a freeing returns the entry to the end of the free
list, and a bookkeeping error leaves the operation undone and reports a part-level fault. -/
def Obligations.PoolAllocatesAndFrees : Prop :=
  ∀ (s : State) (n : Slot) (e : JEntry) (i j : EntryId) (rest : List EntryId) (h : Held),
    s.partFault = false →
      (s.pool.freeList = i :: rest → 0 < s.pool.freeCount → s.pool.isFree i = true →
        ((journalAlloc n e s).slot n).journal = (s.slot n).journal ++ [{ id := i, entry := e }] ∧
          (journalAlloc n e s).pool.freeCount + 1 = s.pool.freeCount ∧ (journalAlloc n e s).pool.freeList = rest ∧
          (journalAlloc n e s).pool.isFree i = false ∧
          (j ≠ i → (journalAlloc n e s).pool.isFree j = s.pool.isFree j) ∧ OthersKept n s (journalAlloc n e s)) ∧
      (s.pool.isFree h.id = false → s.pool.freeCount < 4096 → h ∈ (s.slot n).journal →
        ((journalFreeOne n h s).slot n).journal = (s.slot n).journal.filter (fun x => x.id != h.id) ∧
          (journalFreeOne n h s).pool.freeCount = s.pool.freeCount + 1 ∧
          (journalFreeOne n h s).pool.freeList = s.pool.freeList ++ [h.id] ∧
          (journalFreeOne n h s).pool.isFree h.id = true ∧
          (j ≠ h.id → (journalFreeOne n h s).pool.isFree j = s.pool.isFree j) ∧
          (∀ k ∈ (journalFreeOne n h s).pool.keepMap, k.id ≠ h.id) ∧ OthersKept n s (journalFreeOne n h s)) ∧
      (s.pool.freeList = [] ∨ s.pool.freeCount = 0 ∨ s.pool.freeList.head?.any (fun x => s.pool.isFree x) = false →
        journalAlloc n e s = reportPartFault s) ∧
      (s.pool.isFree h.id = true ∨ s.pool.freeCount = 4096 → journalFreeOne n h s = reportPartFault s)

/-- R25, R33, R160, R168, R172: a part-level fault reported in NORMAL mode ends the event in UNPROTECTED mode, with the journal
entirely free, the Pacer idle and no card in the Replay Engine's keeping: each of those cards is released to service, or to
LOSS_HOLD where its PGOOD is not 1 (R160 says 0, and an invalid PGOOD is read as not 1: notes/assumptions/15.md), under
ADOPT-pending, and every other card's state stands. The order of the freed entries is the model's choice
(notes/assumptions/39.md), and so is the flag that carries the report to the end of the event (notes/assumptions/21.md). Every
command answers what it reports: no fault is left unanswered at its end. -/
def Obligations.PartFaultEntersUnprotected : Prop :=
  ∀ (s t : State) (n : Slot) (c : Instr),
    (exec c s = Host.Outcome.next t → t.partFault = false) ∧
    (s.partFault = true → s.mode = .normal →
      (answerPartFault s).mode = .unprotected ∧ (answerPartFault s).partFault = false ∧
        (answerPartFault s).pool = Pool.allFree ∧ ReplayIdle (answerPartFault s) ∧ (answerPartFault s).rpe.order = [] ∧
        (answerPartFault s).pacer.credit = 0 ∧ (answerPartFault s).pacer.backoff = 0 ∧
        (answerPartFault s).pacer.quiet = .stopped ∧ (answerPartFault s).attn = true ∧
        ((answerPartFault s).slot n).journal = [] ∧ ((answerPartFault s).slot n).card.incomplete = false ∧
        ((answerPartFault s).slot n).card.replayStarted = false ∧
        untagged ((answerPartFault s).slot n).queue = untagged (s.slot n).queue ∧
        if (s.slot n).card.state.inKeeping then
          ((answerPartFault s).slot n).card.adoptPending = true ∧
            ((answerPartFault s).slot n).card.state = (if s.pgoodIsOne n then .inService else .lossHold)
        else ((answerPartFault s).slot n).card.state = (s.slot n).card.state)

/-- R11: an acknowledged KEEP write whose word the map holds moves its entry to the tail with the new value, CONFIRMED and with
good parity, the count unchanged; a word not held takes a new entry at the tail below the quota and makes the journal INCOMPLETE
at it. -/
def Obligations.KeepWriteMovesToTheTail : Prop :=
  ∀ (s : State) (n : Slot) (w : WordNo) (v : Word32) (ix : Fin 8) (h : Held),
    BookkeepingGood n s → s.mode = .normal → (s.slot n).card.incomplete = false →
      (s.keepEntry n w = some h → h.entry.parityError = false →
        ∃ x : Held, ((recordKeep n w v ix s).slot n).journal = (s.slot n).journal.filter (fun y => y.id != h.id) ++ [x] ∧
          x.id = h.id ∧ x.entry.value = v ∧ x.entry.state = .confirmed ∧ x.entry.word = h.entry.word ∧
          x.entry.range = h.entry.range ∧ x.entry.parityError = false ∧
          (recordKeep n w v ix s).journalCount n = s.journalCount n ∧ (recordKeep n w v ix s).pool = s.pool) ∧
      (s.keepEntry n w = some h → h.entry.parityError = true →
        ((recordKeep n w v ix s).slot n).journal = [] ∧ ((recordKeep n w v ix s).slot n).card.incomplete = true) ∧
      (s.keepEntry n w = none → s.journalCount n < (s.slotEntry n).quota → 0 < s.pool.freeCount →
        ∃ x : Held, ((recordKeep n w v ix s).slot n).journal = (s.slot n).journal ++ [x] ∧
          x.entry = JEntry.fresh n w v ix .keep ∧
          { slot := n, word := w, id := x.id } ∈ (recordKeep n w v ix s).pool.keepMap) ∧
      (s.keepEntry n w = none → s.journalCount n = (s.slotEntry n).quota →
        ((recordKeep n w v ix s).slot n).journal = [] ∧ ((recordKeep n w v ix s).slot n).card.incomplete = true)

/-- R12, R13, R15: an acknowledged SEQUENCE write is appended at the tail; a truncate word first frees every entry of its range,
and entries of other ranges keep their places. Where the entries that remain still fill the quota, whether the word is not a
truncate word or its truncation removes nothing, no entry is appended and the journal becomes INCOMPLETE: its flag is set and it
is freed. -/
def Obligations.TruncationFreesItsRange : Prop :=
  ∀ (s : State) (n : Slot) (w : WordNo) (v : Word32) (ix : Fin 8) (r : WordRange) (kept : List Held),
    BookkeepingGood n s →
      kept = (if r.truncate = some w.toNat then (s.slot n).journal.filter (fun h => h.entry.range != ix)
              else (s.slot n).journal) →
        (kept.length < (s.slotEntry n).quota → 0 < s.pool.freeCount →
          ∃ x : Held, ((recordSequence n w v ix r s).slot n).journal = kept ++ [x] ∧
            x.entry = JEntry.fresh n w v ix .sequence ∧ (recordSequence n w v ix r s).partFault = false ∧
            (recordSequence n w v ix r s).pool.freeCount + kept.length + 1 =
              s.pool.freeCount + (s.slot n).journal.length ∧ OthersKept n s (recordSequence n w v ix r s)) ∧
        (kept.length = (s.slotEntry n).quota → s.mode = .normal → (s.slot n).card.incomplete = false →
          ((recordSequence n w v ix r s).slot n).journal = [] ∧
            ((recordSequence n w v ix r s).slot n).card =
              { (s.slot n).card with incomplete := true, nakCount := 0, sinceResume := 0, replayStarted := false } ∧
            (recordSequence n w v ix r s).partFault = false ∧
            (recordSequence n w v ix r s).pool.freeCount = s.pool.freeCount + (s.slot n).journal.length ∧
            OthersKept n s (recordSequence n w v ix r s))

/-- R2, R3, R23: an entry written by the journal has good parity, a change of its state keeps its parity as it was, and a single
damaged bit of any of its fields turns it: owner slot, word, value, range index, class, state or check bit (that class and state
are one bit each in the stored entry is the model's choice: notes/assumptions/29.md). -/
def Obligations.ParityFindsASingleDamagedBit : Prop :=
  ∀ (e : JEntry) (n : Slot) (w : WordNo) (v : Word32) (ix : Fin 8) (c d : EntryClass) (g : EntryState) (i : Fin 32)
    (j : Fin 14) (k : Fin 3) (m : Fin 4),
    (JEntry.fresh n w v ix c).parityError = false ∧ (e.rewritten v).parityError = false ∧
      e.flip.parityError = e.parityError ∧
      JEntry.parityError { e with value := e.value ^^^ (1#32 <<< i.val) } = !e.parityError ∧
      JEntry.parityError { e with word := e.word ^^^ (1#14 <<< j.val) } = !e.parityError ∧
      JEntry.parityError { e with range := Fin.ofNat 8 (e.range.val ^^^ (1 <<< k.val)) } = !e.parityError ∧
      JEntry.parityError { e with owner := Fin.ofNat 16 (e.owner.val ^^^ (1 <<< m.val)) } = !e.parityError ∧
      (d ≠ e.cls → JEntry.parityError { e with cls := d } = !e.parityError) ∧
      (g ≠ e.state → JEntry.parityError { e with state := g } = !e.parityError) ∧
      JEntry.parityError { e with check := !e.check } = !e.parityError

/-- R18, R7: staling marks every entry of the list STALE, keeps their order, words, values and parity, and starts the replay counts
anew. -/
def Obligations.StalingMarksEveryEntry : Prop :=
  ∀ (s : State) (n : Slot),
    (∀ h ∈ ((staleJournal n s).slot n).journal, h.entry.state = .stale) ∧
      ((staleJournal n s).slot n).journal.map (fun h => (h.id, h.entry.word, h.entry.value, h.entry.parityError)) =
        (s.slot n).journal.map (fun h => (h.id, h.entry.word, h.entry.value, h.entry.parityError)) ∧
      ((staleJournal n s).slot n).card.nakCount = 0 ∧ ((staleJournal n s).slot n).card.sinceResume = 0 ∧
      ((staleJournal n s).slot n).card.replayStarted = false ∧ (staleJournal n s).pool = s.pool ∧
      OthersKept n s (staleJournal n s)

/-- R19, R20, R21: the next record is the oldest STALE entry; its acknowledgement turns it CONFIRMED in its place and is counted;
its refusal frees it and is counted up to 8 (that a count of 8 then holds is the model's reading: notes/assumptions/22.md). -/
def Obligations.ReplayWalksTheListFromTheOldest : Prop :=
  ∀ (s : State) (n : Slot) (pre post : List Held) (h : Held),
    (s.slot n).journal = pre ++ h :: post → (∀ x ∈ pre, x.entry.state = .confirmed) → h.entry.state = .stale →
      s.oldestStale n = some h ∧
        ((confirmRecord n s).slot n).journal = pre ++ { h with entry := h.entry.flip } :: post ∧
        ((confirmRecord n s).slot n).card.sinceResume = (s.slot n).card.sinceResume + 1 ∧
        ((confirmRecord n s).slot n).card.replayStarted = true ∧
        ((refuseRecord n s).slot n).card.nakCount = min 8 ((s.slot n).card.nakCount + 1) ∧
        (BookkeepingGood n s →
          ((refuseRecord n s).slot n).journal = pre ++ post ∧
            (∀ k ∈ (refuseRecord n s).pool.keepMap, k.id ≠ h.id))

/-! ## The Pending Write Queues -/

/-- R45, R47: every step keeps the low mark right: the next sequence number while no write is queued, and else the earliest of the
heads' numbers by R45's comparison. That every number not yet retired lies within the 512 that end just before the next one is R45's
own sentence, taken as a premise: the model compares numbers whatever their distance and keeps no such bound
(notes/assumptions/41.md). Computed anew, the low mark is the next sequence number when no write is queued, and otherwise, the heads
lying within 512 numbers of one another, the number of the head that was accepted first. -/
def Obligations.LowMarkIsTheEarliestHead : Prop :=
  ∀ (s t : State) (base : Seq),
    (NumbersRecent s → LowMarkRight s → step s = Host.Outcome.next t → LowMarkRight t) ∧
      ((∀ n : Slot, (s.slot n).queue.head? = none) → (updateLowMark s).wqm.lowMark = s.wqm.nextSeq) ∧
      ((∃ n : Slot, (s.slot n).queue.head? ≠ none) →
        (∀ n : Slot, ∀ q ∈ (s.slot n).queue.head?, (q.seq - base).toNat ≤ 511) →
          (∃ n : Slot, ∃ q ∈ (s.slot n).queue.head?, q.seq = (updateLowMark s).wqm.lowMark) ∧
            ∀ n : Slot, ∀ q ∈ (s.slot n).queue.head?,
              ((updateLowMark s).wqm.lowMark - base).toNat ≤ (q.seq - base).toNat)

/-- R49, R50, R51, R102, R103: with the link aligned, nothing outstanding, READY 1 and BUSY 0, the first request present is
started in the order UNLOCK, relink request, pending read, queue head, under the link's next tag. A relink request sends what its
kind gives. A queue head goes only while its card is IN_SERVICE, or QUARANTINED for a CLEAR or RETIRE, no lock is open on it, no
ADOPT is pending and, if it is ORDERED, its number is the low mark. Without READY 1 and BUSY 0 only a forced relink request is
started (which then goes ahead of an owed UNLOCK: the model's reading, notes/assumptions/10.md). Nothing but the link, and the
in-flight tag of a head that is sent, changes. Every command has the dispatchers consider what it brings about: where no request
that may go is left waiting before it, none is left after it (that they choose at its end is the model's choice:
notes/assumptions/23.md). -/
def Obligations.DispatcherTakesTheFirstPresent : Prop :=
  ∀ (s t u : State) (c : Instr) (n : Slot) (l : Link) (r : RelinkReq) (p : PendingRead) (q : QEntry) (rest : List QEntry),
    (NothingToStart s → exec c s = Host.Outcome.next u → NothingToStart u) ∧
    (t = dispatch n s → l = (s.slot n).link →
      (SharedKept s t ∧ t.port = s.port ∧ OthersKept n s t ∧ (t.slot n).framer = (s.slot n).framer ∧
        (t.slot n).card = (s.slot n).card ∧ (t.slot n).journal = (s.slot n).journal ∧
        untagged (t.slot n).queue = untagged (s.slot n).queue) ∧
      (s.aligned n = false ∨ l.outstanding ≠ none → t = s) ∧
      (s.aligned n = true → l.outstanding = none → (s.readyIsOne n = false ∨ s.busyIsZero n = false) →
        (l.pendingRelink = some r → r.forced = true →
          LinkStarted n { l with pendingRelink := none } (relinkRequest r.what l.tagCounter) (.relink r) t ∧
            (t.slot n).queue = (s.slot n).queue) ∧
        (l.pendingRelink = some r → r.forced = false → t = s) ∧ (l.pendingRelink = none → t = s)) ∧
      (s.aligned n = true → l.outstanding = none → s.readyIsOne n = true → s.busyIsZero n = true →
        (l.unlockOwed = true →
          LinkStarted n { l with unlockOwed := false }
              { kind := .unlock, flag := false, tag := l.tagCounter, word := 0, value := 0 } .unlock t ∧
            (t.slot n).queue = (s.slot n).queue) ∧
        (l.unlockOwed = false → l.pendingRelink = some r →
          LinkStarted n { l with pendingRelink := none } (relinkRequest r.what l.tagCounter) (.relink r) t ∧
            (t.slot n).queue = (s.slot n).queue) ∧
        (l.unlockOwed = false → l.pendingRelink = none → l.pendingRead = some p →
          LinkStarted n { l with pendingRead := none }
              { kind := .read, flag := p.lockFlag, tag := l.tagCounter, word := p.word, value := 0 } .read t ∧
            (t.slot n).queue = (s.slot n).queue) ∧
        (l.unlockOwed = false → l.pendingRelink = none → l.pendingRead = none → (s.slot n).queue = [] → t = s) ∧
        (l.unlockOwed = false → l.pendingRelink = none → l.pendingRead = none → (s.slot n).queue = q :: rest →
          if ((s.slot n).card.state = .inService ∨
                ((s.slot n).card.state = .quarantined ∧ (q.kind = .control .clear ∨ q.kind = .control .retire))) ∧
              s.lockNames n = false ∧ (s.slot n).card.adoptPending = false ∧ q.tag = none ∧
              (q.kind = .ordered → q.seq = s.wqm.lowMark) then
            LinkStarted n l (headRequest q l.tagCounter) .queueHead t ∧
              (t.slot n).queue = { q with tag := some l.tagCounter } :: rest
          else t = s)))

/-! ## Accesses -/

/-- R63: while the part mode is LOADING every access of every kind to every slot is answered RETRY and nothing else is done for it;
a read waiting when RST asserts is answered RETRY in that event, with the current access and the lock record gone and no UNLOCK
owed on any link. -/
def Obligations.LoadingAnswersEveryAccessRetry : Prop :=
  ∀ (s : State) (c : Instr) (r : WaitingRead),
    (c.isAccess = true → s.mode = .loading → s.port.current = none →
      exec c s = Host.Outcome.next (respond .retry (beginEvent s))) ∧
    (s.port.current = some r →
      Completes .rstAsserted s (fun t =>
        t.mode = .loading ∧ t.port.response = some .retry ∧ t.port.current = none ∧ t.port.lock = none ∧
          ∀ n : Slot, (t.slot n).link.unlockOwed = false ∧ (t.slot n).link.outstanding = none))

/-- R64 (NOT_WORD_FORM_ACCESS): an access that is not of word form is answered FAULT and reaches no header word, queue, journal or
link; the UNLOCK for a lock it abandons (R80), owed on the locked slot's link or started there by its dispatcher, is all it brings
about. -/
def Obligations.NotWordFormIsFaulted : Prop :=
  ∀ (s : State) (kind : Option AccessKind) (addr : BusAddr) (value : Word32),
    (kind = none ∨ isAligned addr = false) → PortOpen s →
      AnswersOnly (.notWordFormAccess kind addr value) s .fault ∧
        (s.port.lock = none →
          exec (.notWordFormAccess kind addr value) s = Host.Outcome.next (respond .fault (beginEvent s)))

/-- R70: an access of any kind to a store word whose class is BARRED is answered FAULT; in UNPROTECTED mode no word is BARRED. -/
def Obligations.BarredWordIsFaulted : Prop :=
  ∀ (s : State) (addr : BusAddr) (v : Word32),
    (isAligned addr = true → PortOpen s → 4 ≤ (wordOf addr).toNat → s.classOf (slotOf addr) (wordOf addr) = .barred →
      AnswersOnly (.controllerRead addr) s .fault ∧ AnswersOnly (.controllerWrite addr v) s .fault ∧
        AnswersOnly (.orderedWrite addr v) s .fault ∧ AnswersOnly (.lockedRead addr) s .fault ∧
        Completes (.lockedWrite addr v) s (fun t => t.port.response = some .fault ∧ CardsKept s t ∧ QueuesKept s t) ∧
        (s.port.lock ≠ some { slot := slotOf addr, word := wordOf addr } → AnswersOnly (.lockedWrite addr v) s .fault)) ∧
    (s.mode = .unprotected → s.classOf (slotOf addr) (wordOf addr) ≠ .barred)

/-- R71: every access to the store or to word 2 of an EMPTY slot or a QUARANTINED card is answered FAULT. -/
def Obligations.EmptyOrQuarantinedSlotFaults : Prop :=
  ∀ (s : State) (addr : BusAddr) (v : Word32),
    isAligned addr = true → PortOpen s → (wordOf addr = 2 ∨ 4 ≤ (wordOf addr).toNat) →
      ((s.slot (slotOf addr)).card.state = .empty ∨ (s.slot (slotOf addr)).card.state = .quarantined) →
      s.port.lock ≠ some { slot := slotOf addr, word := wordOf addr } →
      AnswersOnly (.controllerRead addr) s .fault ∧ AnswersOnly (.controllerWrite addr v) s .fault ∧
        AnswersOnly (.orderedWrite addr v) s .fault ∧ AnswersOnly (.lockedRead addr) s .fault ∧
        AnswersOnly (.lockedWrite addr v) s .fault

/-- R73, R75 (CONTROLLER_READ): a READ of a store word or word 2 of an IN_SERVICE card with an empty queue is passed through: the
bus is held and the READ, its lock flag clear, is made pending on the link. -/
def Obligations.ReadPassesThrough : Prop :=
  ∀ (s : State) (addr : BusAddr),
    StoreAddress addr s → PortOpen s → (s.slot (slotOf addr)).card.state = .inService → s.queueDepth (slotOf addr) = 0 →
      HoldsBus (.controllerRead addr) (slotOf addr) (wordOf addr) false s

/-- R73, R74, R59, R22: a READ that is not passed through. A KEEP word is answered with the newest queued write; out of service
with none queued, with the journal's entry; else RETRY. A SEQUENCE or LIVE word is answered RETRY. -/
def Obligations.ReadIsAnsweredFromQueueOrJournal : Prop :=
  ∀ (s : State) (addr : BusAddr) (v : Word32) (h : Held),
    StoreAddress addr s → PortOpen s → (s.slot (slotOf addr)).card.state.shut = false →
      ((s.slot (slotOf addr)).card.state = .inService → 0 < s.queueDepth (slotOf addr)) →
        (classAt addr s ≠ .keep → AnswersOnly (.controllerRead addr) s .retry) ∧
        (classAt addr s = .keep → s.newestQueued (slotOf addr) (wordOf addr) = some v →
          AnswersOnly (.controllerRead addr) s (.ready (some v))) ∧
        (classAt addr s = .keep → s.newestQueued (slotOf addr) (wordOf addr) = none →
          (s.slot (slotOf addr)).card.state = .inService → AnswersOnly (.controllerRead addr) s .retry) ∧
        (classAt addr s = .keep → s.newestQueued (slotOf addr) (wordOf addr) = none →
          (s.slot (slotOf addr)).card.state ≠ .inService → (s.slot (slotOf addr)).card.incomplete = false →
          s.keepEntry (slotOf addr) (wordOf addr) = some h → h.entry.parityError = false →
          AnswersOnly (.controllerRead addr) s (.ready (some h.entry.value))) ∧
        (classAt addr s = .keep → s.newestQueued (slotOf addr) (wordOf addr) = none →
          (s.slot (slotOf addr)).card.state ≠ .inService → s.keepEntry (slotOf addr) (wordOf addr) = none →
          AnswersOnly (.controllerRead addr) s .retry)

/-- R23, R74, R133: a shadow lookup that finds a parity error is answered RETRY, and in the same event its card is QUARANTINED with
reason JOURNAL_ERROR, its journal freed and its queue discarded. -/
def Obligations.ShadowParityErrorQuarantines : Prop :=
  ∀ (s : State) (addr : BusAddr) (h : Held),
    StoreAddress addr s → PortOpen s → (s.slot (slotOf addr)).card.state.shut = false →
      (s.slot (slotOf addr)).card.state ≠ .inService → (s.slot (slotOf addr)).card.incomplete = false →
      classAt addr s = .keep → s.newestQueued (slotOf addr) (wordOf addr) = none →
      s.keepEntry (slotOf addr) (wordOf addr) = some h → h.entry.parityError = true →
        Completes (.controllerRead addr) s (fun t =>
          t.port.response = some .retry ∧ (t.slot (slotOf addr)).card.state = .quarantined ∧
            (t.slot (slotOf addr)).card.reason = some .journalError ∧ (t.slot (slotOf addr)).journal = [] ∧
            (t.slot (slotOf addr)).queue = [] ∧ t.attn = true)

/-- R44, R72 (CONTROLLER_WRITE, ORDERED_WRITE): a write to the store or word 2 that finds room joins the tail of its slot's queue
with the next sequence number, as PLAIN or ORDERED with its word's class, and is answered READY; without room it is answered
RETRY. -/
def Obligations.WriteJoinsItsQueue : Prop :=
  ∀ (s : State) (addr : BusAddr) (v : Word32),
    StoreAddress addr s → PortOpen s → (s.slot (slotOf addr)).card.state.shut = false →
      (Roomy (slotOf addr) s →
        JoinsQueue (.controllerWrite addr v) (slotOf addr)
          { seq := s.wqm.nextSeq, word := wordOf addr, value := v, kind := .plain, cls := some (classAt addr s), tag := none } s ∧
        JoinsQueue (.orderedWrite addr v) (slotOf addr)
          { seq := s.wqm.nextSeq, word := wordOf addr, value := v, kind := .ordered, cls := some (classAt addr s), tag := none } s) ∧
      (¬ Roomy (slotOf addr) s →
        AnswersOnly (.controllerWrite addr v) s .retry ∧ AnswersOnly (.orderedWrite addr v) s .retry)

/-- R77 (LOCKED_READ): of a header word, FAULT; of a store word of a card not IN_SERVICE or with a queued write, RETRY; otherwise
the bus is held and the READ goes to the link with the lock flag set. -/
def Obligations.LockedReadHoldsTheBus : Prop :=
  ∀ (s : State) (addr : BusAddr),
    isAligned addr = true → PortOpen s →
      ((wordOf addr).toNat < 4 → AnswersOnly (.lockedRead addr) s .fault) ∧
      (4 ≤ (wordOf addr).toNat → s.classOf (slotOf addr) (wordOf addr) ≠ .barred →
        (s.slot (slotOf addr)).card.state.shut = false →
          if (s.slot (slotOf addr)).card.state = .inService ∧ s.queueDepth (slotOf addr) = 0 then
            HoldsBus (.lockedRead addr) (slotOf addr) (wordOf addr) true s
          else AnswersOnly (.lockedRead addr) s .retry)

/-- R79 (LOCKED_WRITE): a LOCKED WRITE that matches the lock record joins the queue as a LOCKED entry and closes the lock without an
UNLOCK (none is owed or sent that was not before), or finds no room and is answered RETRY with the lock still open; one that does
not match is answered FAULT. -/
def Obligations.LockedWriteClosesTheLock : Prop :=
  ∀ (s : State) (addr : BusAddr) (v : Word32),
    StoreAddress addr s → PortOpen s → (s.slot (slotOf addr)).card.state.shut = false →
      (s.port.lock = some { slot := slotOf addr, word := wordOf addr } → Roomy (slotOf addr) s →
        JoinsQueue (.lockedWrite addr v) (slotOf addr)
          { seq := s.wqm.nextSeq, word := wordOf addr, value := v, kind := .locked, cls := some (classAt addr s), tag := none } s ∧
        ((s.slot (slotOf addr)).link.unlockOwed = false →
          Completes (.lockedWrite addr v) s (fun t =>
            (t.slot (slotOf addr)).link.unlockOwed = false ∧
              (t.slot (slotOf addr)).link.outstanding.any (fun x => x.source == .unlock) =
                (s.slot (slotOf addr)).link.outstanding.any (fun x => x.source == .unlock)))) ∧
      (s.port.lock = some { slot := slotOf addr, word := wordOf addr } → ¬ Roomy (slotOf addr) s →
        exec (.lockedWrite addr v) s = Host.Outcome.next (respond .retry (beginEvent s))) ∧
      (s.port.lock ≠ some { slot := slotOf addr, word := wordOf addr } → AnswersOnly (.lockedWrite addr v) s .fault)

/-- R66, R71, R72, R136 (CLEAR, RESTART, RETIRE, REBASE): a command code written to word 1 by any kind of write joins the queue as a
CONTROL entry without a class in every card state but EMPTY, which faults it, and QUARANTINED, where RESTART and REBASE are
faulted. -/
def Obligations.ControlCommandJoinsItsQueue : Prop :=
  ∀ (s : State) (c : Command) (kind : WriteAccess) (n : Slot),
    PortOpen s →
      ((s.slot n).card.state.shut = false → Roomy n s →
        JoinsQueue (commandInstr c kind n) n
          { seq := s.wqm.nextSeq, word := 1, value := c.code, kind := .control c, cls := none, tag := none } s) ∧
      ((s.slot n).card.state.shut = false → ¬ Roomy n s → AnswersOnly (commandInstr c kind n) s .retry) ∧
      ((s.slot n).card.state = .empty → AnswersOnly (commandInstr c kind n) s .fault) ∧
      ((s.slot n).card.state = .quarantined → c = .restart ∨ c = .rebase → AnswersOnly (commandInstr c kind n) s .fault)

/-- R44, R58, R72, R145 (CLEAR, RETIRE): written to a QUARANTINED card, the command is accepted like any write, and answered RETRY
with no sequence number and no effect where the queue is at its limit or the pool is empty. Accepted with the link aligned and READY
1 it joins the queue; otherwise it is answered READY, takes a sequence number, and takes its effects at once: the journal is freed,
the queue is empty and the slot becomes EMPTY, its retired mark set exactly when the link is not aligned. -/
def Obligations.CommandEndsAQuarantine : Prop :=
  ∀ (s : State) (c : Command) (kind : WriteAccess) (n : Slot),
    PortOpen s → ReplayConsistent s → JournalInBounds s → (s.slot n).card.state = .quarantined → c = .clear ∨ c = .retire →
      (s.aligned n = true → s.readyIsOne n = true → Roomy n s →
        JoinsQueue (commandInstr c kind n) n
          { seq := s.wqm.nextSeq, word := 1, value := c.code, kind := .control c, cls := none, tag := none } s) ∧
      (¬ Roomy n s → AnswersOnly (commandInstr c kind n) s .retry) ∧
      (s.aligned n = false ∨ s.readyIsOne n = false → Roomy n s →
        Completes (commandInstr c kind n) s (fun t =>
          t.port.response = some (.ready none) ∧ t.wqm.nextSeq = s.wqm.nextSeq + 1 ∧ (t.slot n).queue = [] ∧
            (t.slot n).journal = [] ∧ (t.slot n).card.state = .empty ∧ (t.slot n).card.bound = none ∧
            (t.slot n).card.attempt = 0 ∧ (t.slot n).card.reason = none ∧ (t.slot n).card.incomplete = false ∧
            (t.slot n).card.refused = (s.slot n).card.refused ∧ (t.slot n).card.retired = !s.aligned n))

/-- R65, R66, R68 (HEADER_WORD_FAULT, CONTROL_WORD_INVALID_WRITE): a write to word 0 or 3, a read of word 1, and a write to word 1
of the ADOPT code or of no command code are answered FAULT; a READ of word 0 is answered with the bound identity, or 0. -/
def Obligations.HeaderWordsAreAnsweredByTheBridge : Prop :=
  ∀ (s : State) (kind : AccessKind) (wk : WriteAccess) (addr : BusAddr) (v : Word32) (n : Slot),
    PortOpen s →
      ((Instr.headerWordFault kind addr v).wellFormed = true → AnswersOnly (.headerWordFault kind addr v) s .fault) ∧
      (v ≠ 1 ∧ v ≠ 2 ∧ v ≠ 3 ∧ v ≠ 4 → AnswersOnly (.controlWordInvalidWrite wk n v) s .fault) ∧
      (isAligned addr = true → wordOf addr = 0 →
        AnswersOnly (.controllerRead addr) s
          (.ready (some (match (s.slot (slotOf addr)).card.bound with
                         | none => 0
                         | some i => i.kind ++ i.revision ++ i.serial))))

/-- R68, R69, R175 (READ_BRIDGE_STATUS): the read is answered at once with the status word of the slot as it stands, each field in
its place: the card state by its code 0 to 8, the quarantine reason 1 to 6 of a QUARANTINED card and otherwise 7 with the mimic
indication or 0. It then clears the slot's REFUSED flag and nothing else: no request goes down the slot's link, but for the UNLOCK
of a lock on it that the access abandons (R80), owed there or started by its dispatcher. -/
def Obligations.StatusWordIsComposedAndClearsRefused : Prop :=
  ∀ (s : State) (n : Slot),
    (PortOpen s →
      Completes (.readBridgeStatus n) s (fun t =>
        t.port.response = some (.ready (some (s.statusWord n))) ∧ t.port.current = none ∧ t.port.lock = none ∧
          AccessFrame s t ∧ QueuesKept s t ∧ (t.slot n).card = { (s.slot n).card with refused := false } ∧
          (s.lockNames n = false → t.slot n = { (s.slot n) with card := { (s.slot n).card with refused := false } }) ∧
          (s.lockNames n = true → t.slot n =
            { ((dispatch n (unlockAsked n s)).slot n) with card := { (s.slot n).card with refused := false } }) ∧
          OthersKeptButLock n s t)) ∧
      (s.statusWord n).extractLsb' 28 4 =
        (match (s.slot n).card.state with
         | .empty => 0
         | .inService => 1
         | .lossHold => 2
         | .down => 3
         | .identify => 4
         | .admitWait => 5
         | .replaying => 6
         | .suspended => 7
         | .quarantined => 8) ∧
      ((s.slot n).card.state = .quarantined → ∀ r ∈ (s.slot n).card.reason, (s.statusWord n).extractLsb' 25 3 =
        (match r with
         | .absent => 1
         | .mismatch => 2
         | .incomplete => 3
         | .journalError => 4
         | .unstable => 5
         | .unresponsive => 6)) ∧
      ((s.slot n).card.state ≠ .quarantined →
        (s.statusWord n).extractLsb' 25 3 = if (s.slot n).framer.mimic then 7 else 0) ∧
      (s.statusWord n).extractLsb' 23 2 = BitVec.ofNat 2 (s.slot n).card.attempt ∧
      (s.statusWord n).getLsbD 22 = (s.slot n).card.incomplete ∧
      (s.statusWord n).getLsbD 21 = (s.mode == .unprotected) ∧
      (s.statusWord n).getLsbD 20 = (s.slot n).card.refused ∧
      (s.statusWord n).extractLsb' 7 13 = BitVec.ofNat 13 (s.slot n).journal.length ∧
      (s.statusWord n).extractLsb' 0 7 = BitVec.ofNat 7 (s.slot n).queue.length

/-- R174: ATTN is asserted exactly while a card is QUARANTINED, a card's journal is INCOMPLETE, or the mode is UNPROTECTED. -/
def Obligations.AttnFollowsItsConditions : Prop :=
  ∀ s : State,
    s.attn = true ↔
      (∃ n : Slot, (s.slot n).card.state = .quarantined) ∨ (∃ n : Slot, (s.slot n).card.incomplete = true) ∨
        s.mode = .unprotected

/-- R80, R104: any access but a LOCKED WRITE of its word, a LOCKED WRITE of another slot or word among them, removes an open lock
record, and the locked card's link owes an UNLOCK or has one outstanding. -/
def Obligations.OtherAccessAbandonsTheLock : Prop :=
  ∀ (s : State) (c : Instr) (l : LockRecord),
    c.isAccess = true → c.wellFormed = true →
      (∀ (addr : BusAddr) (v : Word32), c = .lockedWrite addr v → slotOf addr ≠ l.slot ∨ wordOf addr ≠ l.word) →
      PortOpen s → ReplayConsistent s → PortInService s → s.port.lock = some l →
        Completes c s (fun t =>
          t.port.lock = none ∧
            ((t.slot l.slot).link.unlockOwed = true ∨
              (t.slot l.slot).link.outstanding.any (fun x => x.source == .unlock) = true))

/-! ## Slot links -/

/-- R41, R84, R102 (TRANSMIT_MULTIFRAME_START): position 0 of the even frames carries 1 1 0 1 0 0 1 0 and of the odd frames 0. A
send that is due is placed in the multiframe and its response timer starts: in the first frame, after its overhead position, stand
the kind (WRITE 1, READ 2, UNLOCK 3), the flag, the tag, the word and the value, each most significant bit first, with 0 after
them; otherwise the multiframe carries no message, and its payload is 0. A send left due by a transaction that has been answered
goes first (R109; that it goes before a new request is the model's choice: notes/assumptions/32.md). In LOADING the stream
alternates, every frame alike (its phase is the model's choice: notes/assumptions/30.md). -/
def Obligations.TransmittedMultiframeCarriesTheDueSend : Prop :=
  ∀ (s : State) (n : Slot) (x : Txn) (r : Request) (rest : List Request) (k j : Fin 16) (p q : Position),
    (s.mode ≠ .loading →
      s.transmittedBit n k 0 = (k == 0 || k == 2 || k == 6 || k == 12) ∧
      (1 ≤ k.val → 1 ≤ p.val → s.transmittedBit n k p = false) ∧
      ((s.slot n).link.lateSends = r :: rest →
        Completes (.transmitMultiframeStart n) s (fun t =>
          OnlyLink n s t ∧ (t.slot n).link = { (s.slot n).link with sending := some r, lateSends := rest } ∧
            FrameCarries (t.transmittedBit n 0) r)) ∧
      ((s.slot n).link.lateSends = [] → (s.slot n).link.outstanding = some x → x.active = true → x.sendDue = true →
        Completes (.transmitMultiframeStart n) s (fun t =>
          OnlyLink n s t ∧
            (t.slot n).link = { (s.slot n).link with
              sending := some x.req, outstanding := some { x with sendDue := false, response := .running 0 } } ∧
            FrameCarries (t.transmittedBit n 0) x.req)) ∧
      ((s.slot n).link.lateSends = [] → (s.slot n).link.outstanding.any (fun y => y.active && y.sendDue) = false →
        Completes (.transmitMultiframeStart n) s (fun t =>
          OnlyLink n s t ∧ (t.slot n).link = { (s.slot n).link with sending := none } ∧
            (1 ≤ p.val → t.transmittedBit n 0 p = false)))) ∧
    (s.mode = .loading →
      s.transmittedBit n k p = s.transmittedBit n j p ∧
      (q.val = p.val + 1 ∨ (p.val = 63 ∧ q.val = 0) → s.transmittedBit n k q = !s.transmittedBit n j p))

/-- R107, R108 (RESPONSE_TIMEOUT, WAIT_TIMER_EXPIRY): the request is made due again with its tag: after a response timeout with
one more send while fewer than four were made, after a WAIT with a send count of 1; each stops the timer that expired, and nothing
else changes, but that the expiry of the WAIT timer also stops a response timer that runs beside it. That a response timer can run
there, for a resend that was due when the WAIT was taken, and that it is then stopped are the model's choices
(notes/assumptions/12.md), and so is that an expiry is taken whenever its timer runs (notes/assumptions/5.md). -/
def Obligations.TimeoutsResendTheRequest : Prop :=
  ∀ (s : State) (n : Slot) (x : Txn),
    (s.slot n).link.outstanding = some x → x.active = true →
      (x.response.isRunning = true → x.sends < 4 →
        Completes (.responseTimeout n) s (fun t =>
          OnlyLink n s t ∧ (t.slot n).link = { (s.slot n).link with
            outstanding := some { x with sends := x.sends + 1, sendDue := true, response := .stopped } })) ∧
      (x.wait.isRunning = true →
        Completes (.waitTimerExpiry n) s (fun t =>
          OnlyLink n s t ∧ (t.slot n).link = { (s.slot n).link with
            outstanding := some { x with sends := 1, sendDue := true, wait := .stopped, response := .stopped } }))

/-- R107, R108, R110 (RESPONSE_TIMEOUT, COMMIT_LIMIT_EXPIRY): a transaction that has made four sends without an answer, or has
reached the commit limit, fails. For a card IN_SERVICE (R120), in IDENTIFY (R127) or in the Replay Engine's keeping (R131), which
it takes the card out of, it is a card failure: the card goes to DOWN with its queue kept and no longer in flight and, on an
aligned link, a forced RESTART handed over (R126), or at attempt level 3 to QUARANTINED, UNRESPONSIVE, with its queue discarded
(R132). A read waiting on the card in service is answered RETRY (R76, R78). A relink request's failure ends an EMPTY slot's
attempt: it stays EMPTY, its candidate dropped, with nothing handed over again and no attempt level charged (R118, R119); of an
UNLOCK's failure there nothing is said here (what it leaves is the model's choice: notes/assumptions/42.md). A CLEAR or RETIRE in
flight to a QUARANTINED card takes effect as on an unaligned link (R58): the slot is EMPTY, its queue and journal empty, its
retired mark set exactly when the link is not aligned, and on an aligned link with READY 1 the identity read is handed over
(R145). Another failure of a QUARANTINED card with nothing queued leaves it so, and one in LOSS_HOLD or DOWN changes nothing of
the card's course: its state, attempt level, waits and timers stand (R124, R132). That an expiry is taken whenever its timer runs
is the model's choice (notes/assumptions/5.md). -/
def Obligations.FailedTransactionIsACardFailure : Prop :=
  ∀ (s : State) (c : Instr) (n : Slot) (x : Txn),
    (s.slot n).link.outstanding = some x → x.active = true →
      (c = .responseTimeout n ∧ x.response.isRunning = true ∧ 4 ≤ x.sends ∨
        c = .commitLimitExpiry n ∧ x.commit.isRunning = true) →
      ((s.slot n).card.state = .inService → Completes c s (fun t => PortLeft n s t ∧ CardFails n .unresponsive s t)) ∧
      ((s.slot n).card.state = .identify ∨ (s.slot n).card.state.inKeeping = true →
        Completes c s (fun t => CardFails n .unresponsive s t ∧ ReplayLeft n t)) ∧
      (ReplayConsistent s →
        ((s.slot n).card.state = .empty → x.source ≠ .queueHead → x.source ≠ .read → x.source ≠ .unlock →
          Completes c s (fun t =>
            (t.slot n).card.state = .empty ∧ (t.slot n).card.candidate = none ∧
              (t.slot n).card.attempt = (s.slot n).card.attempt ∧
              ((s.slot n).link.pendingRelink = none → t.relinkBusy n = false))) ∧
        ((s.slot n).card.state = .quarantined → x.source = .queueHead →
          Completes c s (fun t =>
            (t.slot n).card.state = .empty ∧ (t.slot n).card.bound = none ∧ (t.slot n).card.reason = none ∧
              (t.slot n).card.attempt = 0 ∧ (t.slot n).card.retired = !s.aligned n ∧ (t.slot n).queue = [] ∧
              (JournalInBounds s → (t.slot n).journal = []) ∧
              (s.aligned n = true → s.readyIsOne n = true → HandedOver n .identity false t))) ∧
        ((s.slot n).card.state = .quarantined → x.source ≠ .queueHead → (s.slot n).queue = [] →
          Completes c s (fun t =>
            (t.slot n).card.state = .quarantined ∧ (t.slot n).card.reason = (s.slot n).card.reason ∧
              (t.slot n).card.attempt = (s.slot n).card.attempt)) ∧
        ((s.slot n).card.state = .lossHold ∨ (s.slot n).card.state = .down →
          Completes c s (fun t =>
            (t.slot n).card.state = (s.slot n).card.state ∧ (t.slot n).card.attempt = (s.slot n).card.attempt ∧
              (t.slot n).card.expectedRestart = (s.slot n).card.expectedRestart ∧
              (t.slot n).card.restartWait = (s.slot n).card.restartWait ∧
              (t.slot n).card.holdOff = (s.slot n).card.holdOff ∧ (t.slot n).card.absence = (s.slot n).card.absence ∧
              (t.slot n).card.ready = (s.slot n).card.ready ∧ untagged (t.slot n).queue = untagged (s.slot n).queue)))

/-- R83, R85, R87, R89 (RECEIVE_FRAME_END): in LOADING a receive frame changes nothing; an ALIGNED framer takes its bits and
counts it towards the multiframe (which a command of its own then judges: the model's choice, notes/assumptions/27.md); a framer
in SEARCH takes its bits and its sightings: every older one ages by a frame and is dropped past 32, and a new one is made of each
position where the bits of frames t − 15, t − 13 and so on to t − 1 are 1, 1, 0, 1, 0, 0, 1 and 0. A position pairs with a
sighting sixteen frames before its newest; another position's sighting within 32 frames refuses it. With no acquisition the framer
stays in SEARCH, its mimic indication raised if one was refused. Of a frame that was in progress when the search began afresh
(R92) no bit and no sighting is kept (that the loss of signal fell within the frame is the model's reading:
notes/assumptions/31.md). -/
def Obligations.ReceivedFrameIsTakenIn : Prop :=
  ∀ (s : State) (n : Slot) (bits : RxFrame) (p q : Position) (k a : Nat) (fr : Framer),
    (wordSeen fr.frames q = true ↔ WordHeard fr.frames q) ∧
      (fr.paired q = true ↔ { position := q, age := 0 } ∈ fr.sightings ∧ { position := q, age := 16 } ∈ fr.sightings) ∧
      (fr.mimicked q = true ↔ ∃ x ∈ fr.sightings, x.position ≠ q ∧ x.age < 32) ∧
      (s.mode = .loading → exec (.receiveFrameEnd n bits) s = Host.Outcome.next (beginEvent s)) ∧
      (s.mode ≠ .loading → (s.slot n).framer.state = .aligned p k → k < 16 →
        Completes (.receiveFrameEnd n bits) s (fun t =>
          OnlyFramer n s t ∧ (t.slot n).framer.state = .aligned p (k + 1) ∧
            (t.slot n).framer.frames = (bits :: (s.slot n).framer.frames).take 32 ∧
            (t.slot n).framer.bits = (s.slot n).framer.bits ∧ (t.slot n).framer.history = (s.slot n).framer.history)) ∧
      (s.mode ≠ .loading → (s.slot n).framer.state = .search → (s.slot n).framer.partFrame = false →
        fr = ((s.slot n).framer.receive bits).sight →
          fr.frames = (bits :: (s.slot n).framer.frames).take 32 ∧
          ({ position := q, age := a } ∈ fr.sightings ↔
            if a = 0 then WordHeard fr.frames q else a ≤ 32 ∧ { position := q, age := a - 1 } ∈ (s.slot n).framer.sightings) ∧
          (fr.acquires s.params.mimicChecking = none →
            Completes (.receiveFrameEnd n bits) s (fun t =>
              OnlyFramer n s t ∧
                (t.slot n).framer = { fr with mimic := fr.mimic || fr.refuses s.params.mimicChecking }))) ∧
      (s.mode ≠ .loading → (s.slot n).framer.state = .search → (s.slot n).framer.partFrame = true →
        Completes (.receiveFrameEnd n bits) s (fun t =>
          OnlyFramer n s t ∧ (t.slot n).framer =
            { (s.slot n).framer with
              partFrame := false, silence := (t.slot n).framer.silence, lossDeclared := (t.slot n).framer.lossDeclared,
              lastBit := (t.slot n).framer.lastBit }))

/-- R86, R87, R88, R141 (RECEIVE_FRAME_END): the framer acquires at the lowest position whose alignment word was seen in two
consecutive multiframes and, with mimic checking on, at no other position meanwhile; it is then ALIGNED there with two unerrored
judgements, its mimic indication down, the position remembered and the slot's retired mark cleared; each status bit is valid if
its values in the two multiframes agree, else invalid, and the second's value is its candidate (R93); the queues, the journals and
every other slot are as they were. A card in LOSS_HOLD whose link has acquired at its last position with FRESH 0 and PGOOD 1
returns to IN_SERVICE and its suspended write is resumed (R112, R124); but one whose identity has not been read since a CLEAR
ended its quarantine (R144) goes to IDENTIFY instead, which is the model's reading (notes/assumptions/35.md). With PGOOD not 1 it
stays, its hold-off timer running on; at another position, or with FRESH not 0, it goes to IDENTIFY with its suspended write set
aside (R124, R127). An EMPTY slot without a candidate hands over the identity read with READY 1, retired or not before, and nothing
otherwise (R118). A card in DOWN goes to IDENTIFY with READY and PGOOD 1 and else stays, its absence timer running on (R125). A card
QUARANTINED as ABSENT or MISMATCH hands over the identity read with READY 1, and no other quarantine hands over anything (R134).
Whatever the state, the ready timer runs after the acquisition exactly where the card is held back in a timed state, starting from
0 if it was stopped (R117). -/
def Obligations.AcquisitionAlignsTheFramer : Prop :=
  ∀ (s : State) (n : Slot) (bits : RxFrame) (p q : Position) (fr : Framer),
    s.mode ≠ .loading → (s.slot n).framer.state = .search → (s.slot n).framer.partFrame = false →
      fr = ((s.slot n).framer.receive bits).sight → fr.acquires s.params.mimicChecking = some p →
        fr.paired p = true ∧ (s.params.mimicChecking = true → fr.mimicked p = false) ∧
          (q < p → fr.paired q = true → s.params.mimicChecking = true ∧ fr.mimicked q = true) ∧
          Completes (.receiveFrameEnd n bits) s (fun t =>
            (t.slot n).framer = fr.align p ∧ (t.slot n).framer.state = .aligned p 0 ∧
              (t.slot n).framer.history = [false, false] ∧ (t.slot n).framer.mimic = false ∧
              AcquiredBit fr.frames p 14 (t.slot n).framer.bits.fresh (t.slot n).framer.candidates.fresh ∧
              AcquiredBit fr.frames p 12 (t.slot n).framer.bits.ready (t.slot n).framer.candidates.ready ∧
              AcquiredBit fr.frames p 10 (t.slot n).framer.bits.pgood (t.slot n).framer.candidates.pgood ∧
              AcquiredBit fr.frames p 8 (t.slot n).framer.bits.busy (t.slot n).framer.candidates.busy ∧
              (t.slot n).framer.lastPosition = some p ∧ (t.slot n).card.retired = false ∧ SharedKept s t ∧ PortKept s t ∧
              OthersKept n s t ∧ (t.slot n).journal = (s.slot n).journal ∧
              untagged (t.slot n).queue = untagged (s.slot n).queue ∧
              ((s.slot n).card.state = .lossHold → (s.slot n).framer.lastPosition = some p →
                (fr.align p).bits.fresh = some false → (fr.align p).bits.pgood = some true → (s.slot n).link.setAside = none →
                  ReturnedFromLoss n (s.slot n).link (s.slot n).card t) ∧
              ((s.slot n).card.state = .lossHold → (s.slot n).framer.lastPosition = some p →
                (t.slot n).framer.bits.fresh = some false → (t.slot n).framer.bits.pgood ≠ some true →
                  (t.slot n).card.state = .lossHold ∧ (t.slot n).card.holdOff = (s.slot n).card.holdOff) ∧
              ((s.slot n).card.state = .lossHold →
                ((s.slot n).framer.lastPosition ≠ some p ∨ (t.slot n).framer.bits.fresh ≠ some false) →
                  (t.slot n).card.state = .identify ∧ (t.slot n).card.holdOff = .stopped ∧ HandedOver n .identity false t ∧
                    ∀ x ∈ (s.slot n).link.outstanding, x.source = .queueHead → x.active = false →
                      (t.slot n).link.setAside = some x) ∧
              ((s.slot n).card.state = .empty → (s.slot n).card.candidate = none → s.relinkBusy n = false →
                (t.slot n).card.state = .empty ∧ (t.slot n).card.candidate = none ∧
                  ((t.slot n).framer.bits.ready = some true → HandedOver n .identity false t) ∧
                  ((t.slot n).framer.bits.ready ≠ some true → (t.slot n).link = (s.slot n).link)) ∧
              ((s.slot n).card.state = .down → (s.slot n).card.restartWait = false →
                ((t.slot n).framer.bits.ready = some true → (t.slot n).framer.bits.pgood = some true →
                  (t.slot n).card.state = .identify ∧ (t.slot n).card.absence = .stopped ∧
                    (t.slot n).card.absenceKept = (s.slot n).card.absence.value ∧ HandedOver n .identity false t) ∧
                ((t.slot n).framer.bits.ready ≠ some true ∨ (t.slot n).framer.bits.pgood ≠ some true →
                  (t.slot n).card.state = .down ∧ (t.slot n).card.absence = (s.slot n).card.absence)) ∧
              ((s.slot n).card.state = .quarantined →
                (t.slot n).card.state = .quarantined ∧ (t.slot n).card.reason = (s.slot n).card.reason ∧
                  (s.relinkBusy n = false →
                    (((s.slot n).card.reason = some .absent ∨ (s.slot n).card.reason = some .mismatch) →
                      (t.slot n).framer.bits.ready = some true → HandedOver n .identity false t) ∧
                    (((s.slot n).card.reason ≠ some .absent ∧ (s.slot n).card.reason ≠ some .mismatch) ∨
                      (t.slot n).framer.bits.ready ≠ some true → t.relinkBusy n = false))) ∧
              ((s.slot n).card.restartWait = false →
                (ReadyTimed (t.slot n).card.state → HeldBack (t.slot n).card.state (t.slot n).framer.bits →
                  (t.slot n).card.ready =
                    if (s.slot n).card.ready = .stopped then .running 0 else (s.slot n).card.ready) ∧
                (¬ ReadyTimed (t.slot n).card.state ∨ ¬ HeldBack (t.slot n).card.state (t.slot n).framer.bits →
                  (t.slot n).card.ready = .stopped)))

/-- R89, R90, R93, R94 (MULTIFRAME_JUDGED): below the out-of-frame criterion, an errored multiframe empties the debounce
candidates and changes nothing else; an unerrored one debounces its status bits, each taking the value carried if its candidate
agrees with it and else standing as it was, leaves them as candidates, and changes nothing outside the framer when it carries no
message and changes no bit. A response it carries (its kind, tag, cause and value in the payload of frame 0, R41) is taken after
the bit changes (R95; the model's reading: notes/assumptions/34.md). Without one: a FRESH rise of a card IN_SERVICE, ADOPT-pending
clear, abandons its transaction and sends it to IDENTIFY (R120), ADOPT-pending set it does nothing (R139), and in LOSS_HOLD it
sends the card to IDENTIFY, the suspended write set aside (R124, R127); a PGOOD that is 1 no longer sends a card IN_SERVICE to
LOSS_HOLD, its queue head SUSPENDED, a read or relink request abandoned, an UNLOCK left to run (R123); a READY change to 1 of an
EMPTY slot hands over the identity read (R118); a card in DOWN goes to IDENTIFY with READY and PGOOD 1 at a change of either, or,
waiting for a restart, at a FRESH rise, which ends the wait (R125, R126). A PGOOD change to 1 with FRESH 0 returns a card in
LOSS_HOLD to IN_SERVICE, its suspended write resumed (R112, R124); but one whose identity has not been read since a CLEAR ended
its quarantine (R144) goes to IDENTIFY, the model's reading (notes/assumptions/35.md). At a change in a timed state that the card
stays in, the ready timer stops where the card is no longer held back nor waits for a restart, runs on where it still is, and
starts from 0 where it is now (R117, R126). -/
def Obligations.JudgedMultiframeIsDebounced : Prop :=
  ∀ (s : State) (n : Slot) (p : Position) (history : List Bool) (fr : Framer) (r : Resp) (f : RxFrame),
    (Resp.ofFrame p f = some r ↔ ResponseHeard p f r) ∧
    (s.mode ≠ .loading → (s.slot n).framer.state = .aligned p 16 →
      history = appendJudgement (s.slot n).framer.history (!wordSeen (s.slot n).framer.frames p) →
      history.count true < s.params.criterion →
        (wordSeen (s.slot n).framer.frames p = false →
          Completes (.multiframeJudged n) s (fun t =>
            OnlyFramer n s t ∧ (t.slot n).framer =
              { (s.slot n).framer with state := .aligned p 0, history := history, candidates := StatusBits.invalid })) ∧
        (wordSeen (s.slot n).framer.frames p = true →
          Completes (.multiframeJudged n) s (fun t =>
            (t.slot n).framer = { (s.slot n).framer with
                state := .aligned p 0, history := history, candidates := statusAt (s.slot n).framer.frames p 0,
                bits := (s.slot n).framer.bits.debounce (s.slot n).framer.candidates (statusAt (s.slot n).framer.frames p 0) } ∧
              DebouncedBit (s.slot n).framer.frames p 14 (s.slot n).framer.bits.fresh (s.slot n).framer.candidates.fresh
                (t.slot n).framer.bits.fresh (t.slot n).framer.candidates.fresh ∧
              DebouncedBit (s.slot n).framer.frames p 12 (s.slot n).framer.bits.ready (s.slot n).framer.candidates.ready
                (t.slot n).framer.bits.ready (t.slot n).framer.candidates.ready ∧
              DebouncedBit (s.slot n).framer.frames p 10 (s.slot n).framer.bits.pgood (s.slot n).framer.candidates.pgood
                (t.slot n).framer.bits.pgood (t.slot n).framer.candidates.pgood ∧
              DebouncedBit (s.slot n).framer.frames p 8 (s.slot n).framer.bits.busy (s.slot n).framer.candidates.busy
                (t.slot n).framer.bits.busy (t.slot n).framer.candidates.busy ∧
              ((((s.slot n).framer.frames[15]?).bind (Resp.ofFrame p) = none ∧ (t.slot n).framer.bits = (s.slot n).framer.bits) →
                OnlyFramer n s t))) ∧
        (wordSeen (s.slot n).framer.frames p = true →
          fr = { (s.slot n).framer with
              state := .aligned p 0, history := history, candidates := statusAt (s.slot n).framer.frames p 0,
              bits := (s.slot n).framer.bits.debounce (s.slot n).framer.candidates (statusAt (s.slot n).framer.frames p 0) } →
            (((s.slot n).framer.frames[15]?).bind (Resp.ofFrame p) = some r →
              exec (.multiframeJudged n) s = Host.Outcome.next (finishLink n (takeResponse n r (checkQuarantinedHead n
                (reportChanges n (s.slot n).framer.bits fr.bits (s.readyTimerDue n) (modFramer n (fun _ => fr) (beginEvent s))))))) ∧
            (((s.slot n).framer.frames[15]?).bind (Resp.ofFrame p) = none → ReplayConsistent s →
              (s.slot n).card.state = .lossHold → fr.bits.fresh = some false → fr.bits.pgood = some true →
              (s.slot n).framer.bits.pgood ≠ some true → (s.slot n).link.setAside = none →
                Completes (.multiframeJudged n) s (fun t => ReturnedFromLoss n (s.slot n).link (s.slot n).card t)) ∧
            (((s.slot n).framer.frames[15]?).bind (Resp.ofFrame p) = none → ReplayConsistent s →
              ((s.slot n).card.state = .inService → (s.slot n).card.adoptPending = false →
                Rises (s.slot n).framer.bits.fresh fr.bits.fresh →
                  Completes (.multiframeJudged n) s (fun t =>
                    (t.slot n).card.state = .identify ∧ (t.slot n).card.stability = .stopped ∧ HandedOver n .identity false t ∧
                      (t.slot n).link.setAside = none ∧ (t.slot n).queue = untagged (s.slot n).queue ∧ PortLeft n s t)) ∧
              ((s.slot n).card.state = .inService → (s.slot n).card.adoptPending = true → fr.bits.pgood = some true →
                Rises (s.slot n).framer.bits.fresh fr.bits.fresh →
                  Completes (.multiframeJudged n) s (fun t =>
                    (t.slot n).card.state = .inService ∧ (t.slot n).card.adoptPending = true ∧
                      untagged (t.slot n).queue = untagged (s.slot n).queue ∧
                      ∀ x ∈ (s.slot n).link.outstanding, (t.slot n).link.outstanding = some x)) ∧
              ((s.slot n).card.state = .lossHold → (s.slot n).card.adoptPending = false →
                Rises (s.slot n).framer.bits.fresh fr.bits.fresh →
                  Completes (.multiframeJudged n) s (fun t =>
                    (t.slot n).card.state = .identify ∧ (t.slot n).card.holdOff = .stopped ∧ HandedOver n .identity false t ∧
                      ∀ x ∈ (s.slot n).link.outstanding, x.source = .queueHead → x.active = false →
                        (t.slot n).link.setAside = some x)) ∧
              ((s.slot n).card.state = .inService →
                ((s.slot n).card.adoptPending = true ∨ ¬ Rises (s.slot n).framer.bits.fresh fr.bits.fresh) →
                fr.bits.pgood ≠ some true → fr.bits.pgood ≠ (s.slot n).framer.bits.pgood →
                  Completes (.multiframeJudged n) s (fun t =>
                    (t.slot n).card.state = .lossHold ∧ (t.slot n).card.holdOff = .running 0 ∧
                      (t.slot n).card.ready = .stopped ∧ (t.slot n).card.adoptPending = (s.slot n).card.adoptPending ∧
                      (t.slot n).queue = (s.slot n).queue ∧ (t.slot n).link.pendingRelink = none ∧ PortLeft n s t ∧
                      ∀ x ∈ (s.slot n).link.outstanding,
                        (x.source = .queueHead → (t.slot n).link.outstanding = some (suspendedTxn x)) ∧
                        (x.source = .unlock → (t.slot n).link.outstanding = some x) ∧
                        (x.source ≠ .queueHead → x.source ≠ .unlock →
                          ((s.slot n).link.pendingRead = none ∨ s.port.current.any (fun r => r.slot == n) = true) →
                            ∀ y ∈ (t.slot n).link.outstanding, y.source = .unlock))) ∧
              ((s.slot n).card.state = .empty → (s.slot n).card.candidate = none → (s.slot n).card.retired = false →
                s.relinkBusy n = false → Rises (s.slot n).framer.bits.ready fr.bits.ready →
                  Completes (.multiframeJudged n) s (fun t =>
                    (t.slot n).card.state = .empty ∧ (t.slot n).card.candidate = none ∧ HandedOver n .identity false t)) ∧
              ((s.slot n).card.state = .down →
                Completes (.multiframeJudged n) s (fun t =>
                  (fr.bits.ready = some true → fr.bits.pgood = some true →
                    (Rises (s.slot n).framer.bits.fresh fr.bits.fresh ∨
                      ((s.slot n).card.restartWait = false ∧ (Rises (s.slot n).framer.bits.ready fr.bits.ready ∨
                        Rises (s.slot n).framer.bits.pgood fr.bits.pgood))) →
                      (t.slot n).card.state = .identify ∧ (t.slot n).card.restartWait = false ∧
                        (t.slot n).card.absence = .stopped ∧
                        (t.slot n).card.absenceKept = (s.slot n).card.absence.value ∧ HandedOver n .identity false t) ∧
                  (fr.bits.ready ≠ some true ∨ fr.bits.pgood ≠ some true →
                    (t.slot n).card.state = .down ∧ (t.slot n).card.absence = (s.slot n).card.absence ∧
                      (Rises (s.slot n).framer.bits.fresh fr.bits.fresh → (t.slot n).card.restartWait = false) ∧
                      (¬ Rises (s.slot n).framer.bits.fresh fr.bits.fresh →
                        (t.slot n).card.restartWait = (s.slot n).card.restartWait)) ∧
                  ((s.slot n).card.restartWait = true → ¬ Rises (s.slot n).framer.bits.fresh fr.bits.fresh →
                    (t.slot n).card.state = .down ∧ (t.slot n).card.restartWait = true)))) ∧
            (((s.slot n).framer.frames[15]?).bind (Resp.ofFrame p) = none → ReplayConsistent s →
              fr.bits ≠ (s.slot n).framer.bits → ReadyTimed (s.slot n).card.state →
              ((s.slot n).card.state = .empty → (s.slot n).card.retired = false) →
                Completes (.multiframeJudged n) s (fun t =>
                  (t.slot n).card.state = (s.slot n).card.state →
                    (¬ HeldBack (s.slot n).card.state fr.bits →
                      ((s.slot n).card.state = .down → (s.slot n).card.restartWait = true →
                        Rises (s.slot n).framer.bits.fresh fr.bits.fresh) → (t.slot n).card.ready = .stopped) ∧
                    (HeldBack (s.slot n).card.state fr.bits → HeldBack (s.slot n).card.state (s.slot n).framer.bits →
                      (s.slot n).card.ready.isRunning = true → (t.slot n).card.ready = (s.slot n).card.ready) ∧
                    ((s.slot n).card.state = .down → (s.slot n).card.restartWait = true →
                      (HeldBack (s.slot n).card.state fr.bits ∨ ¬ Rises (s.slot n).framer.bits.fresh fr.bits.fresh) →
                        (t.slot n).card.ready = (s.slot n).card.ready) ∧
                    (HeldBack (s.slot n).card.state fr.bits → ¬ HeldBack (s.slot n).card.state (s.slot n).framer.bits →
                      ((s.slot n).card.state = .down → (s.slot n).card.restartWait = false) →
                        (s.slot n).card.ready = .stopped → (t.slot n).card.ready = .running 0)))))

/-- R90, R91, R92, R104, R111 (MULTIFRAME_JUDGED, LOSS_OF_SIGNAL): at the criterion, or at once at a loss of signal, an ALIGNED
framer goes to SEARCH with its bits invalid and reports the cause. The search begins with the next receive frame, so that the bits
of the frames before are forgotten (the model's reading: notes/assumptions/11.md) and one in progress at a loss of signal is
passed over (in progress unless the frames taken in have brought the silence count to 1024, and the cause kept: the model's
readings, notes/assumptions/31.md and 40.md). The queue head's transaction is SUSPENDED with its tag and any other abandoned, and
an owed UNLOCK is dropped. A card IN_SERVICE goes to LOSS_HOLD with its hold-off timer started, and a read waiting on it is
answered RETRY (R76, R78, R120, R123); in LOSS_HOLD it stays (R124). An EMPTY slot drops its candidate and its relink request
(R118, R119). In DOWN the ready timer stops and the wait for a restart ends (R125, R126). In IDENTIFY and in the Replay Engine's
keeping it is a card failure of kind link loss (R127, R131, R132); that it is one in IDENTIFY also while the card waits for the
ADOPT of R130, where R127 names only the time before the DATA, is the model's reading (notes/assumptions/16.md). A QUARANTINED
card with a command queued leaves the slot EMPTY and retired (R58, R145); another stays. In SEARCH a loss of signal drops the
sightings and lowers the mimic indication. It is declared once until the next transition (the flag that tells it is the model's:
notes/assumptions/19.md). -/
def Obligations.OutOfFrameSuspendsTheLink : Prop :=
  ∀ (s : State) (c : Instr) (n : Slot) (p : Position) (k : Nat),
    s.mode ≠ .loading →
      (ReplayConsistent s → (s.slot n).framer.state = .aligned p k →
        (c = .lossOfSignal n ∧ (s.slot n).framer.lossDeclared = false ∨
          c = .multiframeJudged n ∧ k = 16 ∧ s.params.criterion ≤
            (appendJudgement (s.slot n).framer.history (!wordSeen (s.slot n).framer.frames p)).count true) →
        Completes c s (fun t =>
          (t.slot n).framer.state = .search ∧ (t.slot n).framer.bits = StatusBits.invalid ∧
            (t.slot n).framer.candidates = StatusBits.invalid ∧ (t.slot n).framer.history = [] ∧
            (t.slot n).framer.lastPosition = (s.slot n).framer.lastPosition ∧ (t.slot n).framer.sightings = [] ∧
            (t.slot n).framer.frames = [] ∧ (t.slot n).framer.mimic = (s.slot n).framer.mimic ∧
            (t.slot n).framer.partFrame = (c == .lossOfSignal n && decide ((s.slot n).framer.silence < 1024)) ∧
            (t.slot n).framer.lossCause = some (if c = .lossOfSignal n then .lossOfSignal else .erroredWords) ∧
            (t.slot n).link.unlockOwed = false ∧
            ((s.slot n).card.state = .inService ∨ (s.slot n).card.state = .lossHold →
              (t.slot n).card.state = .lossHold ∧ (t.slot n).card.attempt = (s.slot n).card.attempt ∧
                (t.slot n).queue = (s.slot n).queue ∧
                (t.slot n).card.holdOff =
                  (if (s.slot n).card.state = .inService then .running 0 else (s.slot n).card.holdOff) ∧
                (t.slot n).link.outstanding =
                  ((s.slot n).link.outstanding.filter (fun x => x.source == .queueHead)).map suspendedTxn) ∧
            ((s.slot n).card.state = .inService → PortLeft n s t) ∧
            ((s.slot n).card.state = .empty →
              (t.slot n).card.state = .empty ∧ (t.slot n).card.candidate = none ∧ (t.slot n).card.ready = .stopped ∧
                (t.slot n).link.pendingRelink = none) ∧
            ((s.slot n).card.state = .down →
              (t.slot n).card.state = .down ∧ (t.slot n).card.restartWait = false ∧ (t.slot n).card.ready = .stopped ∧
                (t.slot n).card.absence = (s.slot n).card.absence) ∧
            ((s.slot n).card.state = .identify ∨ (s.slot n).card.state.inKeeping = true → CardFails n .unstable s t) ∧
            ((s.slot n).card.state = .quarantined → (s.slot n).queue ≠ [] →
              (t.slot n).card.state = .empty ∧ (t.slot n).card.bound = none ∧ (t.slot n).card.retired = true ∧
                (t.slot n).queue = []) ∧
            ((s.slot n).card.state = .quarantined → (s.slot n).queue = [] →
              (t.slot n).card.state = .quarantined ∧ (t.slot n).card.reason = (s.slot n).card.reason ∧
                (t.slot n).link.pendingRelink = none))) ∧
      ((s.slot n).framer.state = .search → (s.slot n).framer.lossDeclared = false →
        Completes (.lossOfSignal n) s (fun t =>
          OnlyFramer n s t ∧ (t.slot n).framer =
            { (s.slot n).framer with silence := 1024, lossDeclared := true, sightings := [], mimic := false })) ∧
      ((s.slot n).framer.lossDeclared = true → exec (.lossOfSignal n) s = Host.Outcome.next (beginEvent s))

/-- R52, R53, R105, R106: a response is taken as the answer only with the outstanding transaction's tag, while it is ACTIVE, and
of a kind that fits; any other is stray and changes nothing. A NAK of the queue head retires it and raises the REFUSED flag
without consulting the journal, and a refused LOCKED entry leaves an UNLOCK owed. An ACK retires the head; then a store write is
recorded by its class in NORMAL mode, in service and with the journal complete (R9 to R13), a write of word 2 is not, and a
command takes its effects (R136). A waiting read is answered DATA with READY, opening the lock record for a LOCKED READ, or NAK
with FAULT (R76, R78). An ACK of a replay record confirms it, a NAK frees it, and the eighth NAK of a replay is a card failure
(R21, R153). An ACK of ADOPT binds an EMPTY slot's candidate (R119), ends a renewal in UNPROTECTED mode (R130) or a replay (R154),
each with LOSS_HOLD after it where PGOOD is not 1 (R120; R154 says 0, and an invalid PGOOD is read as not 1:
notes/assumptions/15.md), or ends ADOPT-pending (R139); a NAK of it drops the candidate, or is a card failure. A NAK of an
identity read is one in IDENTIFY and IN_SERVICE, and nothing else (R118, R127, R134, R144). An ACK of the bridge's RESTART clears
wipe-owed (R130), a NAK of it changes nothing (R132). A WAIT sets the send count to 0, stops the response timer, starts the WAIT
timer and, if it is stopped, the commit timer (R108), and a resend that is due stays due; an ACK, NAK or DATA ends the
transaction, and a send of it that is due is still made (R109). What becomes of a due send at a WAIT and at an answer is the
model's choice (notes/assumptions/12.md, notes/assumptions/32.md). -/
def Obligations.ResponseSettlesTheQueueHead : Prop :=
  ∀ (s t u : State) (n : Slot) (x : Txn) (r : Resp) (q : QEntry) (rest : List QEntry),
    (s.slot n).link.outstanding = some x → t = takeResponse n r s → u = endAnswered n x s →
      (x.active = false ∨ r.tag ≠ x.req.tag ∨ r.kind.fits x.req.kind = false → t = s) ∧
      (OnlyLink n s u ∧ u.port = s.port ∧ (u.slot n).link = { (s.slot n).link with
        outstanding := none
        lateSends := if x.sendDue then (s.slot n).link.lateSends ++ [x.req] else (s.slot n).link.lateSends }) ∧
      (x.active = true → r.tag = x.req.tag →
        (x.req.kind = .write → x.source = .queueHead → (s.slot n).queue = q :: rest →
          ((retireHead n u).slot n = { (u.slot n) with queue := rest } ∧ OthersKept n s (retireHead n u) ∧
            (retireHead n u).pool = s.pool ∧ (retireHead n u).wqm.free = s.wqm.free + 1) ∧
          (r.kind = .nak →
            (t.slot n).queue = rest ∧ (t.slot n).card = { (s.slot n).card with refused := true } ∧
              (t.slot n).journal = (s.slot n).journal ∧ t.pool = s.pool ∧ t.wqm.free = s.wqm.free + 1 ∧
              (t.slot n).link.outstanding = none ∧
              (t.slot n).link.unlockOwed = ((s.slot n).link.unlockOwed || q.kind == .locked) ∧ OthersKept n s t) ∧
          (r.kind = .ack → (∀ c : Command, q.kind ≠ .control c) →
            (q.word = 2 → t = retireHead n u) ∧
            (4 ≤ q.word.toNat →
              (s.mode ≠ .normal ∨ (s.slot n).card.state ≠ .inService ∨ (s.slot n).card.incomplete = true →
                t = retireHead n u) ∧
              (q.cls ≠ some .keep → q.cls ≠ some .sequence → t = retireHead n u) ∧
              (s.mode = .normal → (s.slot n).card.state = .inService → (s.slot n).card.incomplete = false →
                ∀ (ix : Fin 8) (g : WordRange), s.rangeOf n q.word = some (ix, g) →
                  (q.cls = some .keep → t = recordKeep n q.word q.value ix (retireHead n u)) ∧
                  (q.cls = some .sequence → t = recordSequence n q.word q.value ix g (retireHead n u))))) ∧
          (r.kind = .ack → ∀ c : Command, q.kind = .control c →
            ((s.slot n).card.state = .inService → t = commandInService n c (retireHead n u)) ∧
            ((s.slot n).card.state = .quarantined → t = commandQuarantined n c (retireHead n u)))) ∧
        (r.kind = .wait →
          SharedKept s t ∧ PortKept s t ∧ OthersKept n s t ∧ t.slot n = { (s.slot n) with link := { (s.slot n).link with
            outstanding := some { x with sends := 0, response := .stopped, wait := .running 0,
                                         commit := if x.commit.isRunning then x.commit else .running 0 } } }) ∧
        (x.req.kind = .read → x.source = .read → ∀ a ∈ s.port.current, a.slot = n →
          (r.kind = .data →
            t = { u with port := { current := none, response := some (.ready (some r.value)),
                                   lock := if a.locked then some { slot := n, word := a.word } else s.port.lock } }) ∧
          (r.kind = .nak →
            t = { u with port := { current := none, response := some .fault, lock := s.port.lock } })) ∧
        (x.req.kind = .write → (s.slot n).card.state = .replaying → ∀ (f : Bool) (w : WordNo) (v : Word32),
          x.source = .relink { what := .record w v, forced := f } →
            (r.kind = .ack → t = setStep n .waiting (confirmRecord n u)) ∧
            (r.kind = .nak → (s.slot n).card.nakCount < 7 → t = setStep n .waiting (refuseRecord n u)) ∧
            (r.kind = .nak → (s.slot n).card.nakCount = 7 →
              CardFails n .unstable s t ∧ ReplayLeft n t ∧ (t.slot n).card.nakCount = 8 ∧
                (t.slot n).journal = ((refuseRecord n u).slot n).journal)) ∧
        (x.req.kind = .write → r.kind = .nak → ∀ f : Bool, x.source = .relink { what := .adopt, forced := f } →
          ((s.slot n).card.state = .empty →
            SharedKept s t ∧ t.port = s.port ∧ OthersKept n s t ∧
              t.slot n = { (u.slot n) with card := { (s.slot n).card with candidate := none } }) ∧
          ((s.slot n).card.state = .identify ∨ (s.slot n).card.state = .replaying ∨ (s.slot n).card.state = .inService →
            CardFails n .unstable s t) ∧
          ((s.slot n).card.state = .replaying → ReplayLeft n t) ∧ ((s.slot n).card.state = .inService → PortLeft n s t)) ∧
        (x.req.kind = .read → r.kind = .nak → ∀ f : Bool, x.source = .relink { what := .identity, forced := f } →
          if (s.slot n).card.state = .identify ∨ (s.slot n).card.state = .inService then CardFails n .unstable s t else t = u) ∧
        (x.req.kind = .write → ∀ f : Bool, x.source = .relink { what := .restart, forced := f } →
          (r.kind = .ack → SharedKept s t ∧ t.port = s.port ∧ OthersKept n s t ∧
            t.slot n = { (u.slot n) with card := { (s.slot n).card with wipeOwed := false } }) ∧
          (r.kind = .nak → t = u)) ∧
        (x.req.kind = .write → r.kind = .ack → ∀ f : Bool, x.source = .relink { what := .adopt, forced := f } →
          ((s.slot n).card.state = .inService →
            (t.slot n) = { (u.slot n) with card := { (s.slot n).card with adoptPending := false } } ∧ OthersKept n s t) ∧
          ((s.slot n).card.state = .identify ∨ (s.slot n).card.state = .replaying ∨
              ((s.slot n).card.state = .empty ∧ (s.slot n).card.candidate ≠ none) →
            (t.slot n).card.state = (if s.pgoodIsOne n then .inService else .lossHold) ∧
              (t.slot n).queue = (s.slot n).queue ∧ (t.slot n).journal = (s.slot n).journal ∧ OthersKept n s t) ∧
          ((s.slot n).card.state = .empty → ∀ i ∈ (s.slot n).card.candidate,
            (t.slot n).card.bound = some i ∧ (t.slot n).card.candidate = none ∧ (t.slot n).card.attempt = 0) ∧
          ((s.slot n).card.state = .replaying →
            (t.slot n).card.nakCount = 0 ∧ (t.slot n).card.replayStarted = false ∧
              (t.slot n).card.attempt = (s.slot n).card.attempt ∧ ReplayLeft n t)))

/-! ## Cards -/

/-- R119, R127, R128, R129, R130, R132, R134, R144, R149: the outcome of a comparison of the identity read with the bound
identity, for a card in IDENTIFY, and what the DATA of an identity read brings about. One that kept its store returns to service,
or, with PGOOD not 1, to DOWN with its absence timer run on and its set-aside write kept (R129 says PGOOD 0; that an invalid PGOOD
counts as not 1 here and at an entry to service is the model's reading: notes/assumptions/15.md); a store not renewed is a card
failure, the third of which quarantines the card, UNSTABLE; a FRESH card is renewed, in UNPROTECTED mode by an ADOPT alone. In
IDENTIFY it is compared. In EMPTY with FRESH 0 it is bound, the journal INCOMPLETE in NORMAL mode; with FRESH 1 it becomes the
candidate and ADOPT is handed over. A card QUARANTINED as ABSENT or MISMATCH that is the bound one is released to IDENTIFY, the
reason and attempt level gone, and compared; another stays, MISMATCH. With FRESH invalid the read is handed over again, forced if
it was. After a CLEAR of a QUARANTINED card (the flag that tells it is the model's: notes/assumptions/35.md), whatever FRESH
reports, an identity of the bound kind is bound and ADOPT handed over; one of another kind leaves the slot EMPTY with that
identity its candidate and ADOPT handed over. -/
def Obligations.IdentityIsCompared : Prop :=
  ∀ (s t u : State) (n : Slot) (i b : Identity) (fresh f : Bool) (x : Txn) (r : Resp),
     ((s.slot n).card.state = .identify → (s.slot n).card.bound = some b →
       (i.kind ≠ b.kind ∨ (i.serial ≠ b.serial ∧ (fresh = false ∨ (s.slotEntry n).likeReplacement = false)) →
         ((compareIdentity n i fresh s).slot n).card.state = .quarantined ∧
           ((compareIdentity n i fresh s).slot n).card.reason = some .mismatch ∧
           ((compareIdentity n i fresh s).slot n).card.bound = some b ∧
           ((compareIdentity n i fresh s).slot n).queue = [] ∧
           ((compareIdentity n i fresh s).slot n).journal = (s.slot n).journal) ∧
       (i.kind = b.kind → i.serial = b.serial → fresh = false →
         ((s.slot n).card.expectedRestart = true ∨ (s.slot n).card.replayStarted = true) →
         CardFails n .unstable s (compareIdentity n i fresh s) ∧
           ((compareIdentity n i fresh s).slot n).card.bound = some i ∧
           ((compareIdentity n i fresh s).slot n).journal = (s.slot n).journal) ∧
       (i.kind = b.kind → i.serial = b.serial → fresh = false → (s.slot n).card.expectedRestart = false →
         (s.slot n).card.replayStarted = false → s.pgoodIsOne n = false →
         ((compareIdentity n i fresh s).slot n).card.state = .down ∧
           ((compareIdentity n i fresh s).slot n).card.bound = some i ∧
           ((compareIdentity n i fresh s).slot n).card.expectedRestart = false ∧
           ((compareIdentity n i fresh s).slot n).card.restartWait = false ∧
           ((compareIdentity n i fresh s).slot n).card.absence = .running ((s.slot n).card.absenceKept.getD 0) ∧
           ((compareIdentity n i fresh s).slot n).card.attempt = (s.slot n).card.attempt ∧
           ((compareIdentity n i fresh s).slot n).link.setAside = (s.slot n).link.setAside ∧
           ((compareIdentity n i fresh s).slot n).queue = (s.slot n).queue ∧
           ((compareIdentity n i fresh s).slot n).journal = (s.slot n).journal) ∧
       (i.kind = b.kind → (i.serial = b.serial ∨ (s.slotEntry n).likeReplacement = true) → fresh = true →
         (s.slot n).card.incomplete = false → s.mode = .unprotected →
         ((compareIdentity n i fresh s).slot n).card.state = .identify ∧
           ((compareIdentity n i fresh s).slot n).card.bound = some i ∧
           ((compareIdentity n i fresh s).slot n).card.expectedRestart = false ∧
           ((compareIdentity n i fresh s).slot n).link.pendingRelink = some { what := .adopt, forced := false } ∧
           ((compareIdentity n i fresh s).slot n).link.outstanding = none ∧
           ((compareIdentity n i fresh s).slot n).link.setAside = none ∧
           ((compareIdentity n i fresh s).slot n).queue = untagged (s.slot n).queue ∧
           OthersKept n s (compareIdentity n i fresh s)) ∧
       (i.kind = b.kind → i.serial = b.serial → fresh = false → (s.slot n).card.expectedRestart = false →
         (s.slot n).card.replayStarted = false → s.pgoodIsOne n = true →
         ((compareIdentity n i fresh s).slot n).card.state = .inService ∧
           ((compareIdentity n i fresh s).slot n).card.bound = some i ∧
           ((compareIdentity n i fresh s).slot n).journal = (s.slot n).journal ∧
           ((compareIdentity n i fresh s).slot n).link.setAside = none) ∧
       (i.kind = b.kind → i.serial = b.serial → fresh = true → (s.slot n).card.incomplete = true →
         ((compareIdentity n i fresh s).slot n).card.state = .quarantined ∧
           ((compareIdentity n i fresh s).slot n).card.reason = some .incomplete) ∧
       (i.kind = b.kind → (i.serial = b.serial ∨ (s.slotEntry n).likeReplacement = true) → fresh = true →
         (s.slot n).card.incomplete = false → ((s.slot n).card.wipeOwed = false ∨ i.serial ≠ b.serial) → s.mode = .normal →
         ((compareIdentity n i fresh s).slot n).card.state = .admitWait ∧
           ((compareIdentity n i fresh s).slot n).card.bound = some i ∧
           ((compareIdentity n i fresh s).slot n).card.expectedRestart = false ∧
           (∀ h ∈ ((compareIdentity n i fresh s).slot n).journal, h.entry.state = .stale) ∧
           ((compareIdentity n i fresh s).slot n).link.outstanding = none ∧
           ((compareIdentity n i fresh s).slot n).link.setAside = none ∧
           (compareIdentity n i fresh s).rpe.list.any (fun e => e.slot == n && e.wait == .fresh) = true) ∧
       (i.kind = b.kind → i.serial = b.serial → fresh = true → (s.slot n).card.incomplete = false →
         (s.slot n).card.wipeOwed = true → s.mode = .normal →
         ((compareIdentity n i fresh s).slot n).card.state = .down ∧
           ((compareIdentity n i fresh s).slot n).card.attempt = (s.slot n).card.attempt ∧
           ((compareIdentity n i fresh s).slot n).card.expectedRestart = true ∧
           ((compareIdentity n i fresh s).slot n).link.pendingRelink = some { what := .restart, forced := true } ∧
           ((compareIdentity n i fresh s).slot n).journal = (s.slot n).journal)) ∧
     ((s.slot n).link.outstanding = some x → x.active = true → x.req.kind = .read →
        x.source = .relink { what := .identity, forced := f } → r.tag = x.req.tag → r.kind = .data →
        i = { kind := r.value.extractLsb' 24 8, revision := r.value.extractLsb' 16 8, serial := r.value.extractLsb' 0 16 } →
        t = takeResponse n r s → u = endAnswered n x s →
      ((s.slot n).card.state = .identify → (s.bits n).fresh = some fresh → t = compareIdentity n i fresh u) ∧
      ((s.slot n).card.state = .identify ∨ (s.slot n).card.state = .empty ∨
          ((s.slot n).card.state = .quarantined ∧
            ((s.slot n).card.reason = some .absent ∨ (s.slot n).card.reason = some .mismatch)) →
        (s.bits n).fresh = none →
          OnlyLink n u t ∧ t.port = s.port ∧
            (t.slot n).link = { (u.slot n).link with pendingRelink := some { what := .identity, forced := f } }) ∧
      ((s.slot n).card.state = .empty → (s.bits n).fresh = some false →
        (t.slot n).card.bound = some i ∧ (t.slot n).card.candidate = none ∧ (t.slot n).card.attempt = 0 ∧
          (t.slot n).card.state = (if s.pgoodIsOne n then .inService else .lossHold) ∧
          (t.slot n).card.incomplete = (s.mode == .normal || (s.slot n).card.incomplete) ∧ OthersKept n s t) ∧
      ((s.slot n).card.state = .empty → (s.bits n).fresh = some true →
        SharedKept s t ∧ t.port = s.port ∧ OthersKept n s t ∧ t.slot n = { (u.slot n) with
          card := { (s.slot n).card with candidate := some i }
          link := { (u.slot n).link with pendingRelink := some { what := .adopt, forced := false } } }) ∧
      ((s.slot n).card.state = .quarantined → (s.slot n).card.bound = some b → (s.bits n).fresh = some fresh →
        ((s.slot n).card.reason = some .absent ∨ (s.slot n).card.reason = some .mismatch) →
          (i.kind = b.kind → i.serial = b.serial →
            ∃ v : State, t = compareIdentity n i fresh v ∧ SharedKept s v ∧ v.port = s.port ∧ OthersKept n s v ∧
              (v.slot n).card = { (s.slot n).card with
                state := .identify, reason := none, attempt := 0, absenceKept := none, ready := (v.slot n).card.ready } ∧
              (v.slot n).framer = (s.slot n).framer ∧ (v.slot n).journal = (s.slot n).journal ∧
              (v.slot n).queue = (s.slot n).queue) ∧
          (i.kind ≠ b.kind ∨ i.serial ≠ b.serial →
            SharedKept s t ∧ t.port = s.port ∧ OthersKept n s t ∧
              t.slot n = { (u.slot n) with card := { (s.slot n).card with reason := some .mismatch } })) ∧
      ((s.slot n).card.state = .inService → (s.slot n).card.identityOwed = true → (s.slot n).card.bound = some b →
        (i.kind = b.kind →
          SharedKept s t ∧ t.port = s.port ∧ OthersKept n s t ∧ t.slot n = { (u.slot n) with
            card := { (s.slot n).card with bound := some i, identityOwed := false }
            link := { (u.slot n).link with pendingRelink := some { what := .adopt, forced := false } } }) ∧
        (i.kind ≠ b.kind →
          (t.slot n).card.state = .empty ∧ (t.slot n).card.bound = none ∧ (t.slot n).card.candidate = some i ∧
            (t.slot n).card.retired = false ∧ (t.slot n).card.adoptPending = false ∧ (t.slot n).queue = [] ∧
            (t.slot n).link.pendingRelink = some { what := .adopt, forced := false } ∧
            (BookkeepingGood n s → (t.slot n).journal = []) ∧ t.port.current.any (fun a => a.slot == n) = false ∧
            t.lockNames n = false ∧ OthersKept n s t)))

/-- R17, R56, R138, R140, R141, R142, R144: the effects of a control command that a card in IN_SERVICE acknowledges, and of a
CLEAR or RETIRE that a QUARANTINED card acknowledges: after a CLEAR the card is in service under ADOPT-pending, with an identity
read handed over and owed before the ADOPT (the flag that tells it is the model's: notes/assumptions/35.md), or in LOSS_HOLD where
PGOOD is not 1 (R120; an invalid PGOOD is read as not 1: notes/assumptions/15.md). -/
def Obligations.AcknowledgedCommandTakesEffect : Prop :=
  ∀ (s : State) (n : Slot),
    BookkeepingGood n s →
     ((s.slot n).card.state = .inService →
      (((commandInService n .clear s).slot n).journal = [] ∧ ((commandInService n .clear s).slot n).card.incomplete = false ∧
        ((commandInService n .clear s).slot n).card.attempt = 0 ∧
        ((commandInService n .clear s).slot n).card.wipeOwed = false ∧
        ((commandInService n .clear s).slot n).card.adoptPending = true ∧
        ((commandInService n .clear s).slot n).card.state = .inService ∧
        ((commandInService n .clear s).slot n).queue = (s.slot n).queue ∧
        ((commandInService n .clear s).slot n).link.pendingRelink = some { what := .adopt, forced := false }) ∧
      (((commandInService n .restart s).slot n).journal = (s.slot n).journal.map Held.stale ∧
        ((commandInService n .restart s).slot n).card.state = .down ∧
        ((commandInService n .restart s).slot n).card.wipeOwed = false ∧
        ((commandInService n .restart s).slot n).card.expectedRestart = true ∧
        ((commandInService n .restart s).slot n).card.absence = .running 0 ∧
        ((commandInService n .restart s).slot n).card.restartWait = s.aligned n ∧
        ((commandInService n .restart s).slot n).queue = (s.slot n).queue) ∧
      (((commandInService n .retire s).slot n).journal = [] ∧ ((commandInService n .retire s).slot n).queue = [] ∧
        ((commandInService n .retire s).slot n).card.state = .empty ∧
        ((commandInService n .retire s).slot n).card.bound = none ∧
        ((commandInService n .retire s).slot n).card.attempt = 0 ∧
        ((commandInService n .retire s).slot n).card.retired = true ∧
        ((commandInService n .retire s).slot n).card.refused = (s.slot n).card.refused) ∧
      (((commandInService n .rebase s).slot n).journal = [] ∧
        ((commandInService n .rebase s).slot n).card =
          { (s.slot n).card with incomplete := false, nakCount := 0, sinceResume := 0, replayStarted := false } ∧
        ((commandInService n .rebase s).slot n).queue = (s.slot n).queue)) ∧
     ((s.slot n).card.state = .quarantined →
      (((commandQuarantined n .clear s).slot n).journal = [] ∧
        ((commandQuarantined n .clear s).slot n).card.incomplete = false ∧
        ((commandQuarantined n .clear s).slot n).card.reason = none ∧
        ((commandQuarantined n .clear s).slot n).card.attempt = 0 ∧
        ((commandQuarantined n .clear s).slot n).card.expectedRestart = false ∧
        ((commandQuarantined n .clear s).slot n).card.wipeOwed = false ∧
        ((commandQuarantined n .clear s).slot n).card.adoptPending = true ∧
        ((commandQuarantined n .clear s).slot n).card.identityOwed = true ∧
        ((commandQuarantined n .clear s).slot n).card.bound = (s.slot n).card.bound ∧
        ((commandQuarantined n .clear s).slot n).queue = (s.slot n).queue ∧
        (if s.pgoodIsOne n then
          ((commandQuarantined n .clear s).slot n).card.state = .inService ∧
            ((commandQuarantined n .clear s).slot n).link.pendingRelink = some { what := .identity, forced := false }
        else ((commandQuarantined n .clear s).slot n).card.state = .lossHold)) ∧
      (((commandQuarantined n .retire s).slot n).journal = [] ∧ ((commandQuarantined n .retire s).slot n).queue = [] ∧
        ((commandQuarantined n .retire s).slot n).card.state = .empty ∧
        ((commandQuarantined n .retire s).slot n).card.bound = none ∧
        ((commandQuarantined n .retire s).slot n).card.attempt = 0 ∧
        ((commandQuarantined n .retire s).slot n).card.reason = none ∧
        ((commandQuarantined n .retire s).slot n).card.retired = true ∧
        ((commandQuarantined n .retire s).slot n).card.refused = (s.slot n).card.refused))

/-- R117, R118, R132 (READY_LIMIT_EXPIRY): in EMPTY the candidate is dropped and the identity read is handed over as forced, or
already on the link (the model's reading: notes/assumptions/18.md); in every other state the timer runs in, the expiry is a card
failure, to DOWN or, the third, to QUARANTINED as UNRESPONSIVE (R126, R132). That an expiry is taken whenever its timer runs is
the model's choice (notes/assumptions/5.md). -/
def Obligations.ReadyLimitForcesOrFails : Prop :=
  ∀ (s : State) (n : Slot),
    (s.slot n).card.ready.isRunning = true →
      ((s.slot n).card.state = .empty →
        Completes (.readyLimitExpiry n) s (fun t =>
          (t.slot n).card.state = .empty ∧ (t.slot n).card.candidate = none ∧ (t.slot n).card.ready = .stopped ∧ SharedKept s t ∧ PortKept s t ∧
            OthersKept n s t ∧
            ((t.slot n).link.pendingRelink = some { what := .identity, forced := true } ∨
              (t.slot n).link.outstanding.any (fun x =>
                x.source == .relink { what := .identity, forced := true } ||
                  x.source == .relink { what := .identity, forced := false }) = true))) ∧
      ((s.slot n).card.state ≠ .empty → (s.slot n).card.state.readyTimed = true →
        Completes (.readyLimitExpiry n) s (fun t => CardFails n .unresponsive s t))

/-- R122, R124, R125, R133 (STABILITY_WINDOW_EXPIRY, HOLD_OFF_EXPIRY, ABSENCE_LIMIT_EXPIRY): ten seconds in service take the
attempt level to 0; at the hold-off a card in LOSS_HOLD goes to DOWN, a new absence period starting, or straight on to IDENTIFY
where its link is aligned with READY and PGOOD 1; at the absence limit a card in DOWN is QUARANTINED, ABSENT. That an expiry is
taken whenever its timer runs is the model's choice (notes/assumptions/5.md). -/
def Obligations.CardTimersExpire : Prop :=
  ∀ (s : State) (n : Slot),
    ((s.slot n).card.state = .inService → (s.slot n).card.stability.isRunning = true →
      Completes (.stabilityWindowExpiry n) s (fun t =>
        (t.slot n) = { (s.slot n) with card := { (s.slot n).card with attempt := 0, stability := .stopped } } ∧
          SharedKept s t ∧ PortKept s t ∧ OthersKept n s t)) ∧
    ((s.slot n).card.state = .lossHold → (s.slot n).card.holdOff.isRunning = true →
      Completes (.holdOffExpiry n) s (fun t =>
        (t.slot n).card.holdOff = .stopped ∧ (t.slot n).card.expectedRestart = false ∧
          (t.slot n).card.attempt = (s.slot n).card.attempt ∧ (t.slot n).journal = (s.slot n).journal ∧
          (t.slot n).queue = (s.slot n).queue ∧ SharedKept s t ∧ PortKept s t ∧ OthersKept n s t ∧
          if s.aligned n = true ∧ s.readyIsOne n = true ∧ s.pgoodIsOne n = true then
            (t.slot n).card.state = .identify
          else (t.slot n).card.state = .down ∧ (t.slot n).card.absence = .running 0)) ∧
    ((s.slot n).card.state = .down → (s.slot n).card.absence.isRunning = true →
      Completes (.absenceLimitExpiry n) s (fun t =>
        (t.slot n).card.state = .quarantined ∧ (t.slot n).card.reason = some .absent ∧ (t.slot n).queue = [] ∧
          (t.slot n).card.bound = (s.slot n).card.bound ∧ (t.slot n).card.attempt = (s.slot n).card.attempt ∧
          (t.slot n).card.absence = .stopped ∧ (t.slot n).card.ready = .stopped ∧ t.attn = true ∧
          (ReplayIdle s → (t.slot n).journal = (s.slot n).journal)))

/-! ## The Pacer and the Replay Engine -/

/-- R163, R166, R167, R168 (PACER_TICK, PWARN_ASSERTED, PWARN_DEASSERTED, QUIET_INTERVAL_EXPIRY): what each does to the Pacer; a
tick and a deassertion are stated while no claim stands and no card is being replayed, so that no grant follows in the event. That
an expiry is taken whenever its timer runs is the model's choice (notes/assumptions/5.md). -/
def Obligations.PacerFollowsTicksAndWarnings : Prop :=
  ∀ s : State,
    (s.mode = .normal → s.pacer.pwarn = false → ReplayIdle s →
      Completes .pacerTick s (fun t =>
        t.pacer = { s.pacer with
            credit := min s.params.cap (s.pacer.credit + max 1 (s.params.baseRate / 2 ^ s.pacer.backoff)) } ∧
          t.rpe = s.rpe ∧ t.pool = s.pool ∧ t.wqm = s.wqm ∧ CardsKept s t)) ∧
    (s.mode ≠ .normal ∨ s.pacer.pwarn = true → exec .pacerTick s = Host.Outcome.next (beginEvent s)) ∧
    (s.mode = .normal → s.pacer.pwarn = false →
      Completes .pwarnAsserted s (fun t =>
        t.pacer = { s.pacer with pwarn := true, credit := 0, backoff := min 3 (s.pacer.backoff + 1), quiet := .stopped } ∧
          t.slots = s.slots ∧ t.rpe = s.rpe ∧ t.pool = s.pool ∧ t.wqm = s.wqm ∧ t.loader = s.loader)) ∧
    (s.mode = .normal → s.pacer.pwarn = true → ReplayIdle s →
      Completes .pwarnDeasserted s (fun t =>
        t.pacer = { s.pacer with pwarn := false, quiet := .running 0 } ∧ t.rpe = s.rpe ∧ t.pool = s.pool ∧ t.wqm = s.wqm ∧
          CardsKept s t)) ∧
    (s.mode = .normal → s.pacer.quiet.isRunning = true →
      Completes .quietIntervalExpiry s (fun t =>
        t.pacer = { s.pacer with backoff := s.pacer.backoff - 1,
                                 quiet := if 1 < s.pacer.backoff then .running 0 else .stopped } ∧
          t.slots = s.slots ∧ t.rpe = s.rpe ∧ t.pool = s.pool ∧ t.wqm = s.wqm ∧ t.loader = s.loader)) ∧
    (s.mode ≠ .normal →
      Completes .pwarnAsserted s (fun t => t.pacer = { s.pacer with pwarn := true } ∧ t.slots = s.slots) ∧
        Completes .pwarnDeasserted s (fun t => t.pacer = { s.pacer with pwarn := false } ∧ t.slots = s.slots))

/-- R150, R151, R152, R154, R157, R158, R159, R164, R165: granting takes the best-ranked claim, by class and then slot, when the
credit covers its cost, which is spent, and nothing when it does not or PWARN is asserted; a claim's cost is sixteen times its
weight or the cap. An admission claim is placed for a FRESH head while a channel is free, and withdrawn once it is not due. A
granted admission, and a head that waits to resume, which spends nothing, takes the lowest free channel with its stamp: it leaves
the list, stands last in the admission order and is REPLAYING, its records since resume 0. A channel in WAITING with PGOOD 1 takes
the oldest STALE entry in hand with a claim at its range's weight, CLAIMED; without one it is ADOPTING and hands over ADOPT; an
entry with a parity error quarantines its card. A granted record is handed to the link, its channel SENT. PGOOD not 1 (an invalid
one is read so: notes/assumptions/15.md) asks for nothing, and withdraws the claim of a channel in CLAIMED, WAITING again, and an
ADOPT not yet started. With no channel free and none suspend-requested, a head of a class better than the worst of the REPLAYING
cards flags the latest admitted card of that class, and no card otherwise. A flagged channel in WAITING or CLAIMED, BUSY 0 and 32
or more records since resume, suspends its card: the channel is free, its claim gone, and the card on the list again with its
stamp. A flag is cleared once a channel is free, the list is empty, or its head is of no better class than the worst REPLAYING
card, and not before. Every command has all this considered: where nothing of it is left before a command, nothing is left after
it (that each is made as long as its conditions hold is the model's reading, notes/assumptions/8.md). -/
def Obligations.BestRankedClaimIsGranted : Prop :=
  ∀ (i : Instr) (s t : State) (c : Claim) (weight : Nat) (ch : ChannelNo) (u : ChannelUse) (e : ListEntry) (rest : List ListEntry)
    (pre post : List Slot) (v : Slot) (r : ReplayRecord) (h : Held),
    (ReplayConsistent s → IdleOutsideNormal s → KeepingAligned s → NothingToConsider s → exec i s = Host.Outcome.next t →
      NothingToConsider t) ∧
    (bestClaim s.pacer.claims = some c →
      c ∈ s.pacer.claims ∧
        ∀ d ∈ s.pacer.claims, c.priority < d.priority ∨ (c.priority = d.priority ∧ c.slot ≤ d.slot)) ∧
      (s.pacer.pwarn = false → bestClaim s.pacer.claims = some c →
        if c.cost ≤ s.pacer.credit then
          (considerGrant s).any (fun t =>
            t.pacer.credit + c.cost == s.pacer.credit && t.pacer.claims == s.pacer.claims.filter (fun d => d.slot != c.slot))
            = true
        else considerGrant s = none) ∧
      (s.pacer.pwarn = true → considerGrant s = none) ∧
      s.costOf weight = (if 16 * weight ≤ s.params.cap then 16 * weight else s.params.cap) ∧
      (ReplayConsistent s → s.rpe.list = e :: rest → s.channel ch = none → (∀ d : ChannelNo, d < ch → s.channel d ≠ none) →
        (e.wait = .resume → (considerResume s).isSome = true) ∧
        ((e.wait = .fresh ∧ bestClaim s.pacer.claims = some c ∧ c.kind = .admission ∧ c.slot = e.slot ∧ considerGrant s = some t) ∨
            (e.wait = .resume ∧ considerResume s = some t) →
          t.channel ch = some { slot := e.slot, stamp := e.stamp, step := .waiting, suspendRequested := false } ∧
            (∀ d : ChannelNo, d ≠ ch → t.channel d = s.channel d) ∧ t.rpe.list = rest ∧ t.rpe.order = s.rpe.order ++ [e.slot] ∧
            (t.slot e.slot).card.state = .replaying ∧ (t.slot e.slot).card.sinceResume = 0 ∧
            (t.slot e.slot).card.nakCount = (s.slot e.slot).card.nakCount ∧
            (t.slot e.slot).journal = (s.slot e.slot).journal ∧ (t.slot e.slot).queue = (s.slot e.slot).queue ∧
            (e.wait = .resume → t.pacer = s.pacer) ∧ OthersKept e.slot s t)) ∧
      (ReplayConsistent s → bestClaim s.pacer.claims = some c → c.kind = .record → s.channel ch = some u → u.slot = c.slot →
        u.step = .claimed r → considerGrant s = some t →
          t.channel ch = some { u with step := .sent r } ∧ (∀ d : ChannelNo, d ≠ ch → t.channel d = s.channel d) ∧
            t.rpe.list = s.rpe.list ∧ t.rpe.order = s.rpe.order ∧ OthersKept c.slot s t ∧
            t.slot c.slot = { (s.slot c.slot) with link := { (s.slot c.slot).link with
              pendingRelink := some { what := .record r.word r.value, forced := false } } }) ∧
      (ReplayConsistent s → s.channel ch = some u → u.suspendRequested = true → u.step.atBoundary = true →
        s.busyIsZero u.slot = true → 32 ≤ (s.slot u.slot).card.sinceResume →
        (∀ d : ChannelNo, d ≠ ch → (s.channel d).any (fun y => y.suspendRequested) = false) →
          (considerSuspend s).isSome = true ∧
            (considerSuspend s = some t →
              t.channel ch = none ∧ (∀ d : ChannelNo, d ≠ ch → t.channel d = s.channel d) ∧
                t.pacer.claims = s.pacer.claims.filter (fun d => d.slot != u.slot) ∧ t.pacer.credit = s.pacer.credit ∧
                t.rpe.order = s.rpe.order.filter (fun m => m != u.slot) ∧
                t.rpe.list = insertEntry
                  { slot := u.slot, priority := (s.slotEntry u.slot).priority, stamp := u.stamp, wait := .resume } s.rpe.list ∧
                (t.slot u.slot).card.state = .suspended ∧
                (t.slot u.slot).card.sinceResume = (s.slot u.slot).card.sinceResume ∧
                (t.slot u.slot).card.nakCount = (s.slot u.slot).card.nakCount ∧
                (t.slot u.slot).journal = (s.slot u.slot).journal ∧ (t.slot u.slot).queue = (s.slot u.slot).queue ∧
                OthersKept u.slot s t)) ∧
      (ReplayConsistent s → (∀ d : ChannelNo, s.channel d ≠ none) →
        (∀ d : ChannelNo, (s.channel d).any (fun y => y.suspendRequested) = false) →
        s.rpe.list = e :: rest → s.rpe.order = pre ++ v :: post →
        (∀ m ∈ pre, (s.slotEntry m).priority ≤ (s.slotEntry v).priority) →
        (∀ m ∈ post, (s.slotEntry m).priority < (s.slotEntry v).priority) →
          considerPreempt s =
            if e.priority < (s.slotEntry v).priority then
              some { s with rpe := { s.rpe with channels := s.rpe.channels.map (fun y => y.map (fun x =>
                if x.slot = v then { x with suspendRequested := true } else x)) } }
            else none) ∧
      (AdmissionDue v s → (∀ d ∈ s.pacer.claims, d.kind = .admission → d.slot ≠ v) →
        considerAdmissionPlaced s = some { s with pacer := { s.pacer with claims := s.pacer.claims ++
          [{ slot := v, priority := (s.slotEntry v).priority, cost := s.costOf (admissionWeightOf v s), kind := .admission }] } }) ∧
      ((∀ m : Slot, ¬ AdmissionDue m s) → considerAdmissionPlaced s = none) ∧
      ((∀ d ∈ s.pacer.claims, d.kind = .admission → AdmissionDue d.slot s) → considerAdmissionWithdrawn s = none) ∧
      (c ∈ s.pacer.claims → c.kind = .admission → (∀ d ∈ s.pacer.claims, d.kind = .admission → d = c) → ¬ AdmissionDue c.slot s →
        considerAdmissionWithdrawn s =
          some { s with pacer := { s.pacer with claims := s.pacer.claims.filter (fun d => d.slot != c.slot) } }) ∧
      (ReplayConsistent s → s.channel ch = some u →
        (∀ d : ChannelNo, d ≠ ch → (s.channel d).any (fun y =>
          s.pgoodIsOne y.slot && (y.step == .waiting || y.step == .adopting)) = false) →
        (s.pgoodIsOne u.slot = false → considerChannel s = none) ∧
        (s.pgoodIsOne u.slot = true → u.step = .waiting → s.oldestStale u.slot = none →
          considerChannel s = some (setChannel ch (some { u with step := .adopting }) s)) ∧
        (s.pgoodIsOne u.slot = true → u.step = .waiting → s.oldestStale u.slot = some h → h.entry.parityError = false →
          considerChannel s = some { setChannel ch (some { u with step := .claimed {
              word := h.entry.word, value := h.entry.value, range := h.entry.range,
              cost := s.costOf (recordWeightOf u.slot h.entry.range s) } }) s with
            pacer := { s.pacer with claims := s.pacer.claims ++
              [{ slot := u.slot, priority := (s.slotEntry u.slot).priority,
                 cost := s.costOf (recordWeightOf u.slot h.entry.range s), kind := .record }] } }) ∧
        (s.pgoodIsOne u.slot = true → u.step = .waiting → s.oldestStale u.slot = some h → h.entry.parityError = true →
          (considerChannel s).isSome = true ∧
            (considerChannel s = some t → (t.slot u.slot).card.state = .quarantined ∧
              (t.slot u.slot).card.reason = some .journalError ∧ ReplayLeft u.slot t)) ∧
        (s.pgoodIsOne u.slot = true → u.step = .adopting → s.relinkBusy u.slot = false →
          (considerChannel s).isSome = true ∧
            (considerChannel s = some t → OnlyLink u.slot s t ∧
              (t.slot u.slot).link = { (s.slot u.slot).link with
                pendingRelink := some { what := .adopt, forced := false } }))) ∧
      (ReplayConsistent s → s.channel ch = some u → s.pgoodIsOne u.slot = false →
        (∀ d : ChannelNo, d ≠ ch → (s.channel d).all (fun y => s.pgoodIsOne y.slot) = true) →
        (u.step = .claimed r →
          considerSupplyLost s = some { setChannel ch (some { u with step := .waiting }) s with
            pacer := { s.pacer with claims := s.pacer.claims.filter (fun d => d.slot != u.slot) } }) ∧
        (u.step = .adopting → (s.slot u.slot).link.pendingRelink ≠ none →
          (considerSupplyLost s).isSome = true ∧
            (considerSupplyLost s = some t → OnlyLink u.slot s t ∧
              (t.slot u.slot).link = { (s.slot u.slot).link with pendingRelink := none })) ∧
        (u.step = .waiting ∨ u.step = .sent r → considerSupplyLost s = none)) ∧
      ((∀ d : ChannelNo, s.channel d ≠ none) → s.rpe.list = e :: rest → s.channel ch = some u →
        e.priority < (s.slotEntry u.slot).priority → considerClearFlag s = none) ∧
      (s.channel ch = none ∨ s.rpe.list = [] ∨
          (s.rpe.list = e :: rest ∧ ∀ d : ChannelNo, ∀ y ∈ s.channel d, (s.slotEntry y.slot).priority ≤ e.priority) →
        considerPreempt s = none ∧
        ∀ d : ChannelNo, (s.channel d).any (fun y => y.suspendRequested) = true →
          considerClearFlag s = some { s with rpe := { s.rpe with channels := s.rpe.channels.map (fun y => y.map (fun x =>
            if x.suspendRequested then { x with suspendRequested := false } else x)) } })

/-- R149, R158: every step keeps the Admission List in order: better classes first, and within a class earlier stamps first; and the
stamps in keeping different and given before the arrival counter's value, which stays at 65535 at most. A card that joins gets the
counter's value as its stamp, which then becomes one more, and is entered in order with its class and wait kind FRESH; at 65535 the
cards in keeping are numbered 0, 1, 2 and onward by their stamps first and the joining card gets their number; nothing else changes.
An entry placed in an ordered list stands after every entry of a better class and after every entry of its own class with an earlier
stamp, and before every other; a renumbering keeps the order of every two stamps in keeping. -/
def Obligations.AdmissionListStaysInOrder : Prop :=
  ∀ (s t : State) (n : Slot) (e : ListEntry) (l : List ListEntry) (r : Rpe) (a b : Nat),
    (ReplayConsistent s → StampsInOrder s → ListInOrder s → step s = Host.Outcome.next t → ListInOrder t ∧ StampsInOrder t) ∧
      (StampsInOrder s → ListInOrder s → ListInOrder (joinList n s)) ∧
      (s.rpe.arrival ≠ 65535 →
        joinList n s = { s with rpe := { s.rpe with list := (joinList n s).rpe.list, arrival := s.rpe.arrival + 1 } } ∧
          (joinList n s).rpe.list.Perm
            ({ slot := n, priority := (s.slotEntry n).priority, stamp := s.rpe.arrival, wait := .fresh } :: s.rpe.list)) ∧
      (s.rpe.arrival = 65535 →
        joinList n s = { s with rpe :=
            { channels := s.rpe.channels.map (fun u => u.map (fun x => { x with stamp := s.stampRank x.stamp }))
              list := (joinList n s).rpe.list
              order := s.rpe.order
              arrival := s.stampsKept.length + 1 } } ∧
          (joinList n s).rpe.list.Perm
            ({ slot := n, priority := (s.slotEntry n).priority, stamp := s.stampsKept.length, wait := .fresh } ::
              s.rpe.list.map (fun x => { x with stamp := s.stampRank x.stamp }))) ∧
      (l.Pairwise (fun x y => x.priority < y.priority ∨ (x.priority = y.priority ∧ x.stamp < y.stamp)) →
        (∀ x ∈ l, x.priority ≠ e.priority ∨ x.stamp ≠ e.stamp) →
        (insertEntry e l).Pairwise (fun x y => x.priority < y.priority ∨ (x.priority = y.priority ∧ x.stamp < y.stamp))) ∧
      (insertEntry e l).Perm (e :: l) ∧
      (a ∈ r.stamps → b ∈ r.stamps → a < b → r.renumbered a < r.renumbered b) ∧
      (a ∈ r.stamps → r.renumbered a < r.renumber.arrival)
end

