-- ==== Sys2Proof/Laws/State.lean ====
section
/-!
SUPPORT. The small lemmas of the state record: what each update of one slot, of one part of a slot, and of one field of the state
leaves as it was. All but those about a vector's entries are true by `rfl`.
-/

namespace Sys2Proof.Machine

/-! ## One slot's record -/

section OneSlot

variable (n m : Slot) (f : SlotState → SlotState) (s : State)

@[simp] theorem modSlot_loader : (modSlot n f s).loader = s.loader := rfl
@[simp] theorem modSlot_pool : (modSlot n f s).pool = s.pool := rfl
@[simp] theorem modSlot_wqm : (modSlot n f s).wqm = s.wqm := rfl
@[simp] theorem modSlot_port : (modSlot n f s).port = s.port := rfl
@[simp] theorem modSlot_rpe : (modSlot n f s).rpe = s.rpe := rfl
@[simp] theorem modSlot_pacer : (modSlot n f s).pacer = s.pacer := rfl
@[simp] theorem modSlot_partFault : (modSlot n f s).partFault = s.partFault := rfl
@[simp] theorem modSlot_pending : (modSlot n f s).pending = s.pending := rfl
@[simp] theorem modSlot_mode : (modSlot n f s).mode = s.mode := rfl
@[simp] theorem modSlot_params : (modSlot n f s).params = s.params := rfl
@[simp] theorem modSlot_slotEntry : (modSlot n f s).slotEntry m = s.slotEntry m := rfl
@[simp] theorem modSlot_channel (c : ChannelNo) : (modSlot n f s).channel c = s.channel c := rfl

@[simp] theorem modSlot_slot_self : (modSlot n f s).slot n = f (s.slot n) := by
  simp [modSlot, State.slot]

@[simp] theorem modSlot_slot_ne (h : m ≠ n) : (modSlot n f s).slot m = s.slot m := by
  have : n.val ≠ m.val := fun e => h (Fin.ext e.symm)
  simp [modSlot, State.slot, this]

theorem modSlot_slot : (modSlot n f s).slot m = if m = n then f (s.slot n) else s.slot m := by
  by_cases h : m = n
  · subst h; simp
  · simp [h]

end OneSlot

/-! ## The card of one slot -/

section ModCard

variable (n m : Slot) (f : Card → Card) (s : State)

@[simp] theorem modCard_loader : (modCard n f s).loader = s.loader := rfl
@[simp] theorem modCard_pool : (modCard n f s).pool = s.pool := rfl
@[simp] theorem modCard_wqm : (modCard n f s).wqm = s.wqm := rfl
@[simp] theorem modCard_port : (modCard n f s).port = s.port := rfl
@[simp] theorem modCard_rpe : (modCard n f s).rpe = s.rpe := rfl
@[simp] theorem modCard_pacer : (modCard n f s).pacer = s.pacer := rfl
@[simp] theorem modCard_partFault : (modCard n f s).partFault = s.partFault := rfl
@[simp] theorem modCard_pending : (modCard n f s).pending = s.pending := rfl
@[simp] theorem modCard_mode : (modCard n f s).mode = s.mode := rfl
@[simp] theorem modCard_params : (modCard n f s).params = s.params := rfl
@[simp] theorem modCard_slotEntry : (modCard n f s).slotEntry m = s.slotEntry m := rfl
@[simp] theorem modCard_channel (c : ChannelNo) : (modCard n f s).channel c = s.channel c := rfl
@[simp] theorem modCard_slot_ne (h : m ≠ n) : (modCard n f s).slot m = s.slot m := modSlot_slot_ne n m _ s h
@[simp] theorem modCard_framer_self : ((modCard n f s).slot n).framer = (s.slot n).framer := by simp [modCard]
@[simp] theorem modCard_link_self : ((modCard n f s).slot n).link = (s.slot n).link := by simp [modCard]
@[simp] theorem modCard_card_self : ((modCard n f s).slot n).card = f (s.slot n).card := by simp [modCard]
@[simp] theorem modCard_journal_self : ((modCard n f s).slot n).journal = (s.slot n).journal := by simp [modCard]
@[simp] theorem modCard_queue_self : ((modCard n f s).slot n).queue = (s.slot n).queue := by simp [modCard]
@[simp] theorem modCard_framer : ((modCard n f s).slot m).framer = (s.slot m).framer := by
  by_cases h : m = n
  · subst h; simp
  · simp [h]
@[simp] theorem modCard_link : ((modCard n f s).slot m).link = (s.slot m).link := by
  by_cases h : m = n
  · subst h; simp
  · simp [h]
@[simp] theorem modCard_journal : ((modCard n f s).slot m).journal = (s.slot m).journal := by
  by_cases h : m = n
  · subst h; simp
  · simp [h]
@[simp] theorem modCard_queue : ((modCard n f s).slot m).queue = (s.slot m).queue := by
  by_cases h : m = n
  · subst h; simp
  · simp [h]

end ModCard

/-! ## The link of one slot -/

section ModLink

variable (n m : Slot) (f : Link → Link) (s : State)

@[simp] theorem modLink_loader : (modLink n f s).loader = s.loader := rfl
@[simp] theorem modLink_pool : (modLink n f s).pool = s.pool := rfl
@[simp] theorem modLink_wqm : (modLink n f s).wqm = s.wqm := rfl
@[simp] theorem modLink_port : (modLink n f s).port = s.port := rfl
@[simp] theorem modLink_rpe : (modLink n f s).rpe = s.rpe := rfl
@[simp] theorem modLink_pacer : (modLink n f s).pacer = s.pacer := rfl
@[simp] theorem modLink_partFault : (modLink n f s).partFault = s.partFault := rfl
@[simp] theorem modLink_pending : (modLink n f s).pending = s.pending := rfl
@[simp] theorem modLink_mode : (modLink n f s).mode = s.mode := rfl
@[simp] theorem modLink_params : (modLink n f s).params = s.params := rfl
@[simp] theorem modLink_slotEntry : (modLink n f s).slotEntry m = s.slotEntry m := rfl
@[simp] theorem modLink_channel (c : ChannelNo) : (modLink n f s).channel c = s.channel c := rfl
@[simp] theorem modLink_slot_ne (h : m ≠ n) : (modLink n f s).slot m = s.slot m := modSlot_slot_ne n m _ s h
@[simp] theorem modLink_framer_self : ((modLink n f s).slot n).framer = (s.slot n).framer := by simp [modLink]
@[simp] theorem modLink_link_self : ((modLink n f s).slot n).link = f (s.slot n).link := by simp [modLink]
@[simp] theorem modLink_card_self : ((modLink n f s).slot n).card = (s.slot n).card := by simp [modLink]
@[simp] theorem modLink_journal_self : ((modLink n f s).slot n).journal = (s.slot n).journal := by simp [modLink]
@[simp] theorem modLink_queue_self : ((modLink n f s).slot n).queue = (s.slot n).queue := by simp [modLink]
@[simp] theorem modLink_framer : ((modLink n f s).slot m).framer = (s.slot m).framer := by
  by_cases h : m = n
  · subst h; simp
  · simp [h]
@[simp] theorem modLink_card : ((modLink n f s).slot m).card = (s.slot m).card := by
  by_cases h : m = n
  · subst h; simp
  · simp [h]
@[simp] theorem modLink_journal : ((modLink n f s).slot m).journal = (s.slot m).journal := by
  by_cases h : m = n
  · subst h; simp
  · simp [h]
@[simp] theorem modLink_queue : ((modLink n f s).slot m).queue = (s.slot m).queue := by
  by_cases h : m = n
  · subst h; simp
  · simp [h]

end ModLink

/-! ## The framer of one slot -/

section ModFramer

variable (n m : Slot) (f : Framer → Framer) (s : State)

@[simp] theorem modFramer_loader : (modFramer n f s).loader = s.loader := rfl
@[simp] theorem modFramer_pool : (modFramer n f s).pool = s.pool := rfl
@[simp] theorem modFramer_wqm : (modFramer n f s).wqm = s.wqm := rfl
@[simp] theorem modFramer_port : (modFramer n f s).port = s.port := rfl
@[simp] theorem modFramer_rpe : (modFramer n f s).rpe = s.rpe := rfl
@[simp] theorem modFramer_pacer : (modFramer n f s).pacer = s.pacer := rfl
@[simp] theorem modFramer_partFault : (modFramer n f s).partFault = s.partFault := rfl
@[simp] theorem modFramer_pending : (modFramer n f s).pending = s.pending := rfl
@[simp] theorem modFramer_mode : (modFramer n f s).mode = s.mode := rfl
@[simp] theorem modFramer_params : (modFramer n f s).params = s.params := rfl
@[simp] theorem modFramer_slotEntry : (modFramer n f s).slotEntry m = s.slotEntry m := rfl
@[simp] theorem modFramer_channel (c : ChannelNo) : (modFramer n f s).channel c = s.channel c := rfl
@[simp] theorem modFramer_slot_ne (h : m ≠ n) : (modFramer n f s).slot m = s.slot m := modSlot_slot_ne n m _ s h
@[simp] theorem modFramer_framer_self : ((modFramer n f s).slot n).framer = f (s.slot n).framer := by simp [modFramer]
@[simp] theorem modFramer_link_self : ((modFramer n f s).slot n).link = (s.slot n).link := by simp [modFramer]
@[simp] theorem modFramer_card_self : ((modFramer n f s).slot n).card = (s.slot n).card := by simp [modFramer]
@[simp] theorem modFramer_journal_self : ((modFramer n f s).slot n).journal = (s.slot n).journal := by simp [modFramer]
@[simp] theorem modFramer_queue_self : ((modFramer n f s).slot n).queue = (s.slot n).queue := by simp [modFramer]
@[simp] theorem modFramer_link : ((modFramer n f s).slot m).link = (s.slot m).link := by
  by_cases h : m = n
  · subst h; simp
  · simp [h]
@[simp] theorem modFramer_card : ((modFramer n f s).slot m).card = (s.slot m).card := by
  by_cases h : m = n
  · subst h; simp
  · simp [h]
@[simp] theorem modFramer_journal : ((modFramer n f s).slot m).journal = (s.slot m).journal := by
  by_cases h : m = n
  · subst h; simp
  · simp [h]
@[simp] theorem modFramer_queue : ((modFramer n f s).slot m).queue = (s.slot m).queue := by
  by_cases h : m = n
  · subst h; simp
  · simp [h]

end ModFramer

/-! ## The journal of one slot -/

section ModJournal

variable (n m : Slot) (f : List Held → List Held) (s : State)

@[simp] theorem modJournal_loader : (modJournal n f s).loader = s.loader := rfl
@[simp] theorem modJournal_pool : (modJournal n f s).pool = s.pool := rfl
@[simp] theorem modJournal_wqm : (modJournal n f s).wqm = s.wqm := rfl
@[simp] theorem modJournal_port : (modJournal n f s).port = s.port := rfl
@[simp] theorem modJournal_rpe : (modJournal n f s).rpe = s.rpe := rfl
@[simp] theorem modJournal_pacer : (modJournal n f s).pacer = s.pacer := rfl
@[simp] theorem modJournal_partFault : (modJournal n f s).partFault = s.partFault := rfl
@[simp] theorem modJournal_pending : (modJournal n f s).pending = s.pending := rfl
@[simp] theorem modJournal_mode : (modJournal n f s).mode = s.mode := rfl
@[simp] theorem modJournal_params : (modJournal n f s).params = s.params := rfl
@[simp] theorem modJournal_slotEntry : (modJournal n f s).slotEntry m = s.slotEntry m := rfl
@[simp] theorem modJournal_channel (c : ChannelNo) : (modJournal n f s).channel c = s.channel c := rfl
@[simp] theorem modJournal_slot_ne (h : m ≠ n) : (modJournal n f s).slot m = s.slot m := modSlot_slot_ne n m _ s h
@[simp] theorem modJournal_framer_self : ((modJournal n f s).slot n).framer = (s.slot n).framer := by simp [modJournal]
@[simp] theorem modJournal_link_self : ((modJournal n f s).slot n).link = (s.slot n).link := by simp [modJournal]
@[simp] theorem modJournal_card_self : ((modJournal n f s).slot n).card = (s.slot n).card := by simp [modJournal]
@[simp] theorem modJournal_journal_self : ((modJournal n f s).slot n).journal = f (s.slot n).journal := by simp [modJournal]
@[simp] theorem modJournal_queue_self : ((modJournal n f s).slot n).queue = (s.slot n).queue := by simp [modJournal]
@[simp] theorem modJournal_framer : ((modJournal n f s).slot m).framer = (s.slot m).framer := by
  by_cases h : m = n
  · subst h; simp
  · simp [h]
@[simp] theorem modJournal_link : ((modJournal n f s).slot m).link = (s.slot m).link := by
  by_cases h : m = n
  · subst h; simp
  · simp [h]
@[simp] theorem modJournal_card : ((modJournal n f s).slot m).card = (s.slot m).card := by
  by_cases h : m = n
  · subst h; simp
  · simp [h]
@[simp] theorem modJournal_queue : ((modJournal n f s).slot m).queue = (s.slot m).queue := by
  by_cases h : m = n
  · subst h; simp
  · simp [h]

end ModJournal

/-! ## The queue of one slot -/

section ModQueue

variable (n m : Slot) (f : List QEntry → List QEntry) (s : State)

@[simp] theorem modQueue_loader : (modQueue n f s).loader = s.loader := rfl
@[simp] theorem modQueue_pool : (modQueue n f s).pool = s.pool := rfl
@[simp] theorem modQueue_wqm : (modQueue n f s).wqm = s.wqm := rfl
@[simp] theorem modQueue_port : (modQueue n f s).port = s.port := rfl
@[simp] theorem modQueue_rpe : (modQueue n f s).rpe = s.rpe := rfl
@[simp] theorem modQueue_pacer : (modQueue n f s).pacer = s.pacer := rfl
@[simp] theorem modQueue_partFault : (modQueue n f s).partFault = s.partFault := rfl
@[simp] theorem modQueue_pending : (modQueue n f s).pending = s.pending := rfl
@[simp] theorem modQueue_mode : (modQueue n f s).mode = s.mode := rfl
@[simp] theorem modQueue_params : (modQueue n f s).params = s.params := rfl
@[simp] theorem modQueue_slotEntry : (modQueue n f s).slotEntry m = s.slotEntry m := rfl
@[simp] theorem modQueue_channel (c : ChannelNo) : (modQueue n f s).channel c = s.channel c := rfl
@[simp] theorem modQueue_slot_ne (h : m ≠ n) : (modQueue n f s).slot m = s.slot m := modSlot_slot_ne n m _ s h
@[simp] theorem modQueue_framer_self : ((modQueue n f s).slot n).framer = (s.slot n).framer := by simp [modQueue]
@[simp] theorem modQueue_link_self : ((modQueue n f s).slot n).link = (s.slot n).link := by simp [modQueue]
@[simp] theorem modQueue_card_self : ((modQueue n f s).slot n).card = (s.slot n).card := by simp [modQueue]
@[simp] theorem modQueue_journal_self : ((modQueue n f s).slot n).journal = (s.slot n).journal := by simp [modQueue]
@[simp] theorem modQueue_queue_self : ((modQueue n f s).slot n).queue = f (s.slot n).queue := by simp [modQueue]
@[simp] theorem modQueue_framer : ((modQueue n f s).slot m).framer = (s.slot m).framer := by
  by_cases h : m = n
  · subst h; simp
  · simp [h]
@[simp] theorem modQueue_link : ((modQueue n f s).slot m).link = (s.slot m).link := by
  by_cases h : m = n
  · subst h; simp
  · simp [h]
@[simp] theorem modQueue_card : ((modQueue n f s).slot m).card = (s.slot m).card := by
  by_cases h : m = n
  · subst h; simp
  · simp [h]
@[simp] theorem modQueue_journal : ((modQueue n f s).slot m).journal = (s.slot m).journal := by
  by_cases h : m = n
  · subst h; simp
  · simp [h]

end ModQueue

/-! ## One field of the state: no slot's record changes -/

section OneField

variable (s : State) (n : Slot)

@[simp] theorem slot_with_loader (v : Loader) : State.slot { s with loader := v } n = s.slot n := rfl
@[simp] theorem slot_with_pool (v : Pool) : State.slot { s with pool := v } n = s.slot n := rfl
@[simp] theorem slot_with_wqm (v : Wqm) : State.slot { s with wqm := v } n = s.slot n := rfl
@[simp] theorem slot_with_port (v : Port) : State.slot { s with port := v } n = s.slot n := rfl
@[simp] theorem slot_with_rpe (v : Rpe) : State.slot { s with rpe := v } n = s.slot n := rfl
@[simp] theorem slot_with_pacer (v : Pacer) : State.slot { s with pacer := v } n = s.slot n := rfl
@[simp] theorem slot_with_partFault (v : Bool) : State.slot { s with partFault := v } n = s.slot n := rfl
@[simp] theorem slot_with_pending (v : List Instr) : State.slot { s with pending := v } n = s.slot n := rfl
@[simp] theorem mode_with_pool (v : Pool) : State.mode { s with pool := v } = s.mode := rfl
@[simp] theorem mode_with_wqm (v : Wqm) : State.mode { s with wqm := v } = s.mode := rfl
@[simp] theorem mode_with_port (v : Port) : State.mode { s with port := v } = s.mode := rfl
@[simp] theorem mode_with_rpe (v : Rpe) : State.mode { s with rpe := v } = s.mode := rfl
@[simp] theorem mode_with_pacer (v : Pacer) : State.mode { s with pacer := v } = s.mode := rfl
@[simp] theorem mode_with_partFault (v : Bool) : State.mode { s with partFault := v } = s.mode := rfl
@[simp] theorem mode_with_pending (v : List Instr) : State.mode { s with pending := v } = s.mode := rfl
@[simp] theorem params_with_pool (v : Pool) : State.params { s with pool := v } = s.params := rfl
@[simp] theorem params_with_wqm (v : Wqm) : State.params { s with wqm := v } = s.params := rfl
@[simp] theorem params_with_port (v : Port) : State.params { s with port := v } = s.params := rfl
@[simp] theorem params_with_rpe (v : Rpe) : State.params { s with rpe := v } = s.params := rfl
@[simp] theorem params_with_pacer (v : Pacer) : State.params { s with pacer := v } = s.params := rfl
@[simp] theorem params_with_partFault (v : Bool) : State.params { s with partFault := v } = s.params := rfl
@[simp] theorem params_with_pending (v : List Instr) : State.params { s with pending := v } = s.params := rfl
@[simp] theorem slotEntry_with_pool (v : Pool) : State.slotEntry { s with pool := v } n = s.slotEntry n := rfl
@[simp] theorem slotEntry_with_wqm (v : Wqm) : State.slotEntry { s with wqm := v } n = s.slotEntry n := rfl
@[simp] theorem slotEntry_with_port (v : Port) : State.slotEntry { s with port := v } n = s.slotEntry n := rfl
@[simp] theorem slotEntry_with_rpe (v : Rpe) : State.slotEntry { s with rpe := v } n = s.slotEntry n := rfl
@[simp] theorem slotEntry_with_pacer (v : Pacer) : State.slotEntry { s with pacer := v } n = s.slotEntry n := rfl
@[simp] theorem slotEntry_with_partFault (v : Bool) : State.slotEntry { s with partFault := v } n = s.slotEntry n := rfl
@[simp] theorem slotEntry_with_pending (v : List Instr) : State.slotEntry { s with pending := v } n = s.slotEntry n := rfl

end OneField

/-! ## `beginEvent` -/

@[simp] theorem beginEvent_loader (s : State) : (beginEvent s).loader = s.loader := rfl
@[simp] theorem beginEvent_pool (s : State) : (beginEvent s).pool = s.pool := rfl
@[simp] theorem beginEvent_wqm (s : State) : (beginEvent s).wqm = s.wqm := rfl
@[simp] theorem beginEvent_rpe (s : State) : (beginEvent s).rpe = s.rpe := rfl
@[simp] theorem beginEvent_pacer (s : State) : (beginEvent s).pacer = s.pacer := rfl
@[simp] theorem beginEvent_pending (s : State) : (beginEvent s).pending = s.pending := rfl
@[simp] theorem beginEvent_slots (s : State) : (beginEvent s).slots = s.slots := rfl
@[simp] theorem beginEvent_slot (s : State) (n : Slot) : (beginEvent s).slot n = s.slot n := rfl
@[simp] theorem beginEvent_mode (s : State) : (beginEvent s).mode = s.mode := rfl
@[simp] theorem beginEvent_current (s : State) : (beginEvent s).port.current = s.port.current := rfl
@[simp] theorem beginEvent_lock (s : State) : (beginEvent s).port.lock = s.port.lock := rfl
@[simp] theorem beginEvent_response (s : State) : (beginEvent s).port.response = none := rfl
@[simp] theorem beginEvent_partFault (s : State) : (beginEvent s).partFault = false := rfl

/-! ## `respond` -/

@[simp] theorem respond_loader (r : Response) (s : State) : (respond r s).loader = s.loader := rfl
@[simp] theorem respond_pool (r : Response) (s : State) : (respond r s).pool = s.pool := rfl
@[simp] theorem respond_wqm (r : Response) (s : State) : (respond r s).wqm = s.wqm := rfl
@[simp] theorem respond_rpe (r : Response) (s : State) : (respond r s).rpe = s.rpe := rfl
@[simp] theorem respond_pacer (r : Response) (s : State) : (respond r s).pacer = s.pacer := rfl
@[simp] theorem respond_partFault (r : Response) (s : State) : (respond r s).partFault = s.partFault := rfl
@[simp] theorem respond_pending (r : Response) (s : State) : (respond r s).pending = s.pending := rfl
@[simp] theorem respond_slots (r : Response) (s : State) : (respond r s).slots = s.slots := rfl
@[simp] theorem respond_slot (r : Response) (s : State) (n : Slot) : (respond r s).slot n = s.slot n := rfl
@[simp] theorem respond_mode (r : Response) (s : State) : (respond r s).mode = s.mode := rfl
@[simp] theorem respond_current (r : Response) (s : State) : (respond r s).port.current = s.port.current := rfl
@[simp] theorem respond_lock (r : Response) (s : State) : (respond r s).port.lock = s.port.lock := rfl
@[simp] theorem respond_response (r : Response) (s : State) : (respond r s).port.response = some r := rfl

/-! ## `reportPartFault` -/

@[simp] theorem reportPartFault_loader (s : State) : (reportPartFault s).loader = s.loader := rfl
@[simp] theorem reportPartFault_pool (s : State) : (reportPartFault s).pool = s.pool := rfl
@[simp] theorem reportPartFault_wqm (s : State) : (reportPartFault s).wqm = s.wqm := rfl
@[simp] theorem reportPartFault_port (s : State) : (reportPartFault s).port = s.port := rfl
@[simp] theorem reportPartFault_rpe (s : State) : (reportPartFault s).rpe = s.rpe := rfl
@[simp] theorem reportPartFault_pacer (s : State) : (reportPartFault s).pacer = s.pacer := rfl
@[simp] theorem reportPartFault_pending (s : State) : (reportPartFault s).pending = s.pending := rfl
@[simp] theorem reportPartFault_slots (s : State) : (reportPartFault s).slots = s.slots := rfl
@[simp] theorem reportPartFault_slot (s : State) (n : Slot) : (reportPartFault s).slot n = s.slot n := rfl
@[simp] theorem reportPartFault_mode (s : State) : (reportPartFault s).mode = s.mode := rfl
@[simp] theorem reportPartFault_partFault (s : State) : (reportPartFault s).partFault = true := rfl

/-! ## The slots in order -/

theorem mem_allSlots (n : Slot) : n ∈ allSlots := by revert n; decide

theorem mem_allChannels (c : ChannelNo) : c ∈ allChannels := by revert c; decide

/-- What a pass over all the slots keeps, if each slot's turn keeps it. -/
theorem foldl_slots_keep {α : Type} (p : State → α) (g : State → Slot → State) (h : ∀ s n, p (g s n) = p s) :
    ∀ (l : List Slot) (s : State), p (l.foldl g s) = p s
  | [], _ => rfl
  | n :: rest, s => by rw [List.foldl_cons, foldl_slots_keep p g h rest (g s n), h]

end Sys2Proof.Machine
end

