-- ==== Sys2Proof/Laws/Links.lean ====
section
/-!
SUPPORT. What the transaction logic can do: every operation of it changes one slot's link, and of its queue the head's in-flight
tag alone.
-/

namespace Sys2Proof.Machine

/-! ## Queues but for tags -/

theorem untagged_setTag (q : QEntry) (rest : List QEntry) (t : Option Tag) :
    untagged ({ q with tag := t } :: rest) = untagged (q :: rest) := rfl

@[simp] theorem untagged_nil : untagged [] = [] := rfl

@[simp] theorem untagged_append (a b : List QEntry) : untagged (a ++ b) = untagged a ++ untagged b := by
  simp [untagged]

@[simp] theorem untagged_length (q : List QEntry) : (untagged q).length = q.length := by simp [untagged]

@[simp] theorem untagged_untag (q : List QEntry) : untagged (q.map (fun e => { e with tag := none })) = untagged q := by
  simp [untagged]

/-- A queue is empty exactly when it is so without its tags. -/
theorem eq_nil_of_untagged_eq {a b : List QEntry} (h : untagged a = untagged b) : a = [] ↔ b = [] := by
  have := congrArg List.length h
  rw [untagged_length, untagged_length] at this
  rw [← List.length_eq_zero_iff, ← List.length_eq_zero_iff, this]

/-! ## The steps of a link -/

/-- Nothing has changed but slot `n`'s link and its queue's in-flight tags. -/
structure LinkStep (n : Slot) (s t : State) : Prop where
  loader : t.loader = s.loader
  pool : t.pool = s.pool
  wqm : t.wqm = s.wqm
  port : t.port = s.port
  rpe : t.rpe = s.rpe
  pacer : t.pacer = s.pacer
  partFault : t.partFault = s.partFault
  pending : t.pending = s.pending
  others : OthersKept n s t
  framer : (t.slot n).framer = (s.slot n).framer
  card : (t.slot n).card = (s.slot n).card
  journal : (t.slot n).journal = (s.slot n).journal
  queue : untagged (t.slot n).queue = untagged (s.slot n).queue

theorem LinkStep.refl (n : Slot) (s : State) : LinkStep n s s :=
  ⟨rfl, rfl, rfl, rfl, rfl, rfl, rfl, rfl, fun _ _ => rfl, rfl, rfl, rfl, rfl⟩

theorem LinkStep.trans {n : Slot} {s t u : State} (h : LinkStep n s t) (k : LinkStep n t u) : LinkStep n s u :=
  ⟨k.loader.trans h.loader, k.pool.trans h.pool, k.wqm.trans h.wqm, k.port.trans h.port, k.rpe.trans h.rpe,
    k.pacer.trans h.pacer, k.partFault.trans h.partFault, k.pending.trans h.pending,
    fun m hm => (k.others m hm).trans (h.others m hm), k.framer.trans h.framer, k.card.trans h.card,
    k.journal.trans h.journal, k.queue.trans h.queue⟩

theorem LinkStep.shared {n : Slot} {s t : State} (h : LinkStep n s t) : SharedKept s t :=
  ⟨h.loader, h.pool, h.wqm, h.rpe, h.pacer, h.pending⟩

theorem LinkStep.mode {n : Slot} {s t : State} (h : LinkStep n s t) : t.mode = s.mode := congrArg Loader.mode h.loader

/-- A link's step keeps every slot's card. -/
theorem LinkStep.cards {n : Slot} {s t : State} (h : LinkStep n s t) : CardsKept s t := fun m => by
  by_cases e : m = n
  · subst e; exact h.card
  · rw [h.others m e]

/-- A link's step keeps every slot's framer. -/
theorem LinkStep.framers {n : Slot} {s t : State} (h : LinkStep n s t) (m : Slot) :
    (t.slot m).framer = (s.slot m).framer := by
  by_cases e : m = n
  · subst e; exact h.framer
  · rw [h.others m e]

/-- A link's step keeps every slot's journal. -/
theorem LinkStep.journals {n : Slot} {s t : State} (h : LinkStep n s t) (m : Slot) :
    (t.slot m).journal = (s.slot m).journal := by
  by_cases e : m = n
  · subst e; exact h.journal
  · rw [h.others m e]

/-- A link's step keeps every queue but for tags. -/
theorem LinkStep.queues {n : Slot} {s t : State} (h : LinkStep n s t) : QueuesKept s t :=
  ⟨h.wqm, fun m => by
    by_cases e : m = n
    · subst e; exact h.queue
    · rw [h.others m e]⟩

/-- A change of a link alone is a link's step. -/
theorem modLink_linkStep (n : Slot) (f : Link → Link) (s : State) : LinkStep n s (modLink n f s) :=
  ⟨rfl, rfl, rfl, rfl, rfl, rfl, rfl, rfl, fun m h => modLink_slot_ne n m f s h, by simp, by simp, by simp, by simp⟩

/-- A change of in-flight tags alone is a link's step. -/
theorem modQueue_linkStep (n : Slot) (f : List QEntry → List QEntry) (s : State) (h : ∀ q, untagged (f q) = untagged q) :
    LinkStep n s (modQueue n f s) :=
  ⟨rfl, rfl, rfl, rfl, rfl, rfl, rfl, rfl, fun m e => modQueue_slot_ne n m f s e, by simp, by simp, by simp, by simp [h]⟩

theorem handOver_linkStep (n : Slot) (w : RelinkKind) (b : Bool) (s : State) : LinkStep n s (handOver n w b s) :=
  modLink_linkStep n _ s

theorem withdrawRelink_linkStep (n : Slot) (s : State) : LinkStep n s (withdrawRelink n s) := modLink_linkStep n _ s

/-- The statements' spelling of an abandoned lock is the model's own asking, with the lock record gone. -/
theorem unlockAsked_eq (m : Slot) (s : State) :
    unlockAsked m s = askUnlock m { s with port := { s.port with lock := none } } := rfl

theorem askUnlock_linkStep (n : Slot) (s : State) : LinkStep n s (askUnlock n s) := modLink_linkStep n _ s

theorem askUnlockIfAligned_linkStep (n : Slot) (s : State) : LinkStep n s (askUnlockIfAligned n s) := by
  unfold askUnlockIfAligned
  split
  · exact askUnlock_linkStep n s
  · exact LinkStep.refl n s

theorem cutOffOutstanding_linkStep (n : Slot) (b : Bool) (s : State) : LinkStep n s (cutOffOutstanding n b s) :=
  modLink_linkStep n _ s

theorem setAsideSuspended_linkStep (n : Slot) (s : State) : LinkStep n s (setAsideSuspended n s) := modLink_linkStep n _ s

theorem resumeHead_linkStep (n : Slot) (s : State) : LinkStep n s (resumeHead n s) := modLink_linkStep n _ s

theorem endTransaction_linkStep (n : Slot) (s : State) : LinkStep n s (endTransaction n s) := modLink_linkStep n _ s

theorem endAnswered_linkStep (n : Slot) (t : Txn) (s : State) : LinkStep n s (endAnswered n t s) := modLink_linkStep n _ s

/-- What the end of an answered transaction leaves in its link: a resend of it that is due stays due (R109). -/
@[simp] theorem endAnswered_link (n : Slot) (t : Txn) (s : State) :
    ((endAnswered n t s).slot n).link = { (s.slot n).link with
      outstanding := none
      lateSends := if t.sendDue then (s.slot n).link.lateSends ++ [t.req] else (s.slot n).link.lateSends } := by
  simp [endAnswered]

/-- What the start of a transmitted multiframe can do: it places the oldest late send, the outstanding transaction's due send, or
nothing. -/
theorem beginMultiframe_cases (l : Link) :
    (∃ r rest, l.lateSends = r :: rest ∧ l.beginMultiframe = { l with sending := some r, lateSends := rest }) ∨
      (∃ x, l.lateSends = [] ∧ l.outstanding = some x ∧ x.active = true ∧ x.sendDue = true ∧
        l.beginMultiframe = { l with outstanding := some x.placed, sending := some x.req }) ∨
      (l.lateSends = [] ∧ l.outstanding.any (fun x => x.active && x.sendDue) = false ∧
        l.beginMultiframe = { l with sending := none }) := by
  unfold Link.beginMultiframe
  split
  · exact .inl ⟨_, _, ‹_›, rfl⟩
  · exact .inr (.inr ⟨‹_›, by simp [*], rfl⟩)
  · rename_i x h k
    split
    · rename_i c
      rw [Bool.and_eq_true] at c
      exact .inr (.inl ⟨x, h, k, c.1, c.2, rfl⟩)
    · rename_i c
      exact .inr (.inr ⟨h, by simpa [k] using c, rfl⟩)

/-- Abandoning the queue head's transaction takes the tags off its queue and nothing else with it. -/
theorem abandonHead_linkStep (n : Slot) (s : State) : LinkStep n s (abandonHead n s) :=
  ⟨rfl, rfl, rfl, rfl, rfl, rfl, rfl, rfl, fun m h => modSlot_slot_ne n m _ s h, by simp [abandonHead], by simp [abandonHead],
    by simp [abandonHead], by simp [abandonHead]⟩

theorem abandonAll_linkStep (n : Slot) (s : State) : LinkStep n s (abandonAll n s) :=
  (abandonHead_linkStep n s).trans (modLink_linkStep n _ _)

/-! ## Starting a request (R101, R102) -/

theorem startRequest_linkStep (n : Slot) (k : ReqKind) (b : Bool) (w : WordNo) (v : Word32) (src : Source) (s : State) :
    LinkStep n s (startRequest n k b w v src s) := modLink_linkStep n _ s

/-- A request takes the tag that the counter stood at, is ACTIVE with one send, and awaits the next multiframe. -/
theorem startRequest_outstanding (n : Slot) (k : ReqKind) (b : Bool) (w : WordNo) (v : Word32) (src : Source) (s : State) :
    ((startRequest n k b w v src s).slot n).link.outstanding =
      some (Txn.start { kind := k, flag := b, tag := (s.slot n).link.tagCounter, word := w, value := v } src) := by
  simp [startRequest]

/-- The counter passes over a tag that a WRITE used last. -/
theorem nextTagCounter_ne_last (c : Tag) (l : Option Tag) : l ≠ some (nextTagCounter c l) := by
  unfold nextTagCounter
  split
  · rename_i h
    rw [h]
    intro e
    have := Option.some.inj e
    bv_omega
  · assumption

theorem startUnlock_linkStep (n : Slot) (s : State) : LinkStep n s (startUnlock n s) :=
  (modLink_linkStep n _ s).trans (startRequest_linkStep n _ _ _ _ _ _)

theorem startRelink_linkStep (n : Slot) (r : RelinkReq) (s : State) : LinkStep n s (startRelink n r s) := by
  unfold startRelink
  cases h : r.what <;> exact (modLink_linkStep n _ s).trans (startRequest_linkStep n _ _ _ _ _ _)

theorem startRead_linkStep (n : Slot) (r : PendingRead) (s : State) : LinkStep n s (startRead n r s) :=
  (modLink_linkStep n _ s).trans (startRequest_linkStep n _ _ _ _ _ _)

theorem startHead_linkStep (n : Slot) (q : QEntry) (s : State) : LinkStep n s (startHead n q s) := by
  refine (modQueue_linkStep n _ s ?_).trans (startRequest_linkStep n _ _ _ _ _ _)
  intro l
  cases l <;> rfl

/-! ## The dispatcher (R102, R103) -/

/-- What the dispatcher can do: nothing, or one request started. -/
theorem dispatch_cases (n : Slot) (s : State) :
    dispatch n s = s ∨
      (s.aligned n = true ∧ (s.slot n).link.outstanding = none ∧
        ((s.slot n).link.unlockOwed = true ∧ dispatch n s = startUnlock n s ∨
          (∃ r, (s.slot n).link.pendingRelink = some r ∧ dispatch n s = startRelink n r s) ∨
          (∃ r, (s.slot n).link.pendingRead = some r ∧ dispatch n s = startRead n r s) ∨
          ∃ q rest, (s.slot n).queue = q :: rest ∧ s.headMayGo n q = true ∧ dispatch n s = startHead n q s)) := by
  unfold dispatch
  split
  · exact .inl rfl
  · rename_i h
    have ha : s.aligned n = true := by
      cases e : s.aligned n <;> simp [e] at h ⊢
    have ho : (s.slot n).link.outstanding = none := by
      cases e : (s.slot n).link.outstanding <;> simp [e] at h ⊢
    split
    · split
      · exact .inr ⟨ha, ho, .inl ⟨‹_›, rfl⟩⟩
      · split
        · exact .inr ⟨ha, ho, .inr (.inl ⟨_, ‹_›, rfl⟩)⟩
        · exact .inr ⟨ha, ho, .inr (.inr (.inl ⟨_, ‹_›, rfl⟩))⟩
        · split
          · exact .inr ⟨ha, ho, .inr (.inr (.inr ⟨_, _, ‹_›, ‹_›, rfl⟩))⟩
          · exact .inl rfl
        · exact .inl rfl
    · split
      · split
        · exact .inr ⟨ha, ho, .inr (.inl ⟨_, ‹_›, rfl⟩)⟩
        · exact .inl rfl
      · exact .inl rfl

theorem dispatch_linkStep (n : Slot) (s : State) : LinkStep n s (dispatch n s) := by
  obtain h | ⟨-, -, ⟨-, h⟩ | ⟨r, -, h⟩ | ⟨r, -, h⟩ | ⟨q, rest, -, -, h⟩⟩ := dispatch_cases n s <;> rw [h]
  · exact LinkStep.refl n s
  · exact startUnlock_linkStep n s
  · exact startRelink_linkStep n r s
  · exact startRead_linkStep n r s
  · exact startHead_linkStep n q s

/-- A dispatcher with a transaction outstanding does nothing. -/
theorem dispatch_of_outstanding (n : Slot) (s : State) (h : (s.slot n).link.outstanding ≠ none) : dispatch n s = s := by
  obtain e | ⟨-, e, -⟩ := dispatch_cases n s
  · exact e
  · exact absurd e h

/-- A dispatcher of a link that is not aligned does nothing. -/
theorem dispatch_of_not_aligned (n : Slot) (s : State) (h : s.aligned n = false) : dispatch n s = s := by
  obtain e | ⟨e, -⟩ := dispatch_cases n s
  · exact e
  · rw [h] at e; exact absurd e (by decide)

/-! ## Every dispatcher in turn -/

theorem dispatchAll_pending (s : State) : (dispatchAll s).pending = s.pending :=
  foldl_slots_keep State.pending _ (fun s n => (dispatch_linkStep n s).pending) allSlots s

theorem dispatchAll_loader (s : State) : (dispatchAll s).loader = s.loader :=
  foldl_slots_keep State.loader _ (fun s n => (dispatch_linkStep n s).loader) allSlots s

theorem dispatchAll_pool (s : State) : (dispatchAll s).pool = s.pool :=
  foldl_slots_keep State.pool _ (fun s n => (dispatch_linkStep n s).pool) allSlots s

theorem dispatchAll_wqm (s : State) : (dispatchAll s).wqm = s.wqm :=
  foldl_slots_keep State.wqm _ (fun s n => (dispatch_linkStep n s).wqm) allSlots s

theorem dispatchAll_port (s : State) : (dispatchAll s).port = s.port :=
  foldl_slots_keep State.port _ (fun s n => (dispatch_linkStep n s).port) allSlots s

theorem dispatchAll_rpe (s : State) : (dispatchAll s).rpe = s.rpe :=
  foldl_slots_keep State.rpe _ (fun s n => (dispatch_linkStep n s).rpe) allSlots s

theorem dispatchAll_pacer (s : State) : (dispatchAll s).pacer = s.pacer :=
  foldl_slots_keep State.pacer _ (fun s n => (dispatch_linkStep n s).pacer) allSlots s

theorem dispatchAll_card (s : State) (m : Slot) : ((dispatchAll s).slot m).card = (s.slot m).card :=
  foldl_slots_keep (fun t => (t.slot m).card) _ (fun s n => (dispatch_linkStep n s).cards m) allSlots s

theorem dispatchAll_framer (s : State) (m : Slot) : ((dispatchAll s).slot m).framer = (s.slot m).framer :=
  foldl_slots_keep (fun t => (t.slot m).framer) _ (fun s n => (dispatch_linkStep n s).framers m) allSlots s

theorem dispatchAll_journal (s : State) (m : Slot) : ((dispatchAll s).slot m).journal = (s.slot m).journal :=
  foldl_slots_keep (fun t => (t.slot m).journal) _ (fun s n => (dispatch_linkStep n s).journals m) allSlots s

theorem dispatchAll_queue (s : State) (m : Slot) :
    untagged ((dispatchAll s).slot m).queue = untagged (s.slot m).queue :=
  foldl_slots_keep (fun t => untagged (t.slot m).queue) _ (fun s n => (dispatch_linkStep n s).queues.2 m) allSlots s

end Sys2Proof.Machine
end

