-- ==== Sys2Proof/Laws/Journal.lean ====
section
/-!
SUPPORT. What the Restore Journal's operations can do: each changes one slot's list and the pool, and of the slot's card the
journal's fields alone.
-/

namespace Sys2Proof.Machine

/-! ## The steps of a journal -/

/-- A card's record but for the fields the journal keeps there (R7, R15). -/
def Card.sansJournal (c : Card) : Card := { c.noReplay with incomplete := false }

/-- Nothing has changed but the pool, slot `n`'s list, the journal's fields of its card, and a report of a part-level fault. -/
structure JournalStep (n : Slot) (s t : State) : Prop where
  loader : t.loader = s.loader
  wqm : t.wqm = s.wqm
  port : t.port = s.port
  rpe : t.rpe = s.rpe
  pacer : t.pacer = s.pacer
  pending : t.pending = s.pending
  others : OthersKept n s t
  framer : (t.slot n).framer = (s.slot n).framer
  link : (t.slot n).link = (s.slot n).link
  queue : (t.slot n).queue = (s.slot n).queue
  card : (t.slot n).card.sansJournal = (s.slot n).card.sansJournal

theorem JournalStep.refl (n : Slot) (s : State) : JournalStep n s s :=
  ⟨rfl, rfl, rfl, rfl, rfl, rfl, fun _ _ => rfl, rfl, rfl, rfl, rfl⟩

theorem JournalStep.trans {n : Slot} {s t u : State} (h : JournalStep n s t) (k : JournalStep n t u) : JournalStep n s u :=
  ⟨k.loader.trans h.loader, k.wqm.trans h.wqm, k.port.trans h.port, k.rpe.trans h.rpe, k.pacer.trans h.pacer,
    k.pending.trans h.pending, fun m hm => (k.others m hm).trans (h.others m hm), k.framer.trans h.framer,
    k.link.trans h.link, k.queue.trans h.queue, k.card.trans h.card⟩

/-- A journal's step keeps the card's state. -/
theorem JournalStep.state {n : Slot} {s t : State} (h : JournalStep n s t) :
    (t.slot n).card.state = (s.slot n).card.state := by
  have k := congrArg Card.state h.card
  exact k

/-- A journal's step keeps the bound identity. -/
theorem JournalStep.bound {n : Slot} {s t : State} (h : JournalStep n s t) :
    (t.slot n).card.bound = (s.slot n).card.bound := by
  have k := congrArg Card.bound h.card
  exact k

theorem reportPartFault_journalStep (n : Slot) (s : State) : JournalStep n s (reportPartFault s) :=
  ⟨rfl, rfl, rfl, rfl, rfl, rfl, fun _ _ => rfl, rfl, rfl, rfl, rfl⟩

theorem withPool_journalStep (n : Slot) (s : State) (p : Pool) : JournalStep n s { s with pool := p } :=
  ⟨rfl, rfl, rfl, rfl, rfl, rfl, fun _ _ => rfl, rfl, rfl, rfl, rfl⟩

theorem modJournal_journalStep (n : Slot) (f : List Held → List Held) (s : State) : JournalStep n s (modJournal n f s) :=
  ⟨rfl, rfl, rfl, rfl, rfl, rfl, fun m h => modJournal_slot_ne n m f s h, by simp, by simp, by simp, by simp⟩

theorem modCard_journalStep (n : Slot) (f : Card → Card) (s : State)
    (h : (f (s.slot n).card).sansJournal = (s.slot n).card.sansJournal) : JournalStep n s (modCard n f s) :=
  ⟨rfl, rfl, rfl, rfl, rfl, rfl, fun m e => modCard_slot_ne n m f s e, by simp, by simp, by simp, by simp [h]⟩

/-! ## The pool (R1, R24) -/

/-- What an allocation can do: nothing in an event that has reported an error, a report, or one entry taken. -/
theorem journalAlloc_cases (n : Slot) (e : JEntry) (s : State) :
    s.partFault = true ∧ journalAlloc n e s = s ∨
      s.partFault = false ∧ journalAlloc n e s = reportPartFault s ∨
      ∃ i rest, s.partFault = false ∧ s.pool.freeList = i :: rest ∧ s.pool.freeCount ≠ 0 ∧ s.pool.isFree i = true ∧
        journalAlloc n e s = modJournal n (fun l => l ++ [{ id := i, entry := e }])
          { s with pool :=
            { freeCount := s.pool.freeCount - 1, freeList := rest, freeMarks := s.pool.unmarked i,
              keepMap := if e.cls = .keep then s.pool.keepMap ++ [{ slot := n, word := e.word, id := i }]
                         else s.pool.keepMap } } := by
  unfold journalAlloc
  cases hf : s.partFault
  · simp only [Bool.false_eq_true, if_false]
    cases hl : s.pool.freeList with
    | nil => exact .inr (.inl ⟨trivial, rfl⟩)
    | cons i rest =>
      by_cases hc : s.pool.freeCount = 0 ∨ s.pool.isFree i = false
      · simp [hc]
      · have hc' := not_or.mp hc
        refine .inr (.inr ⟨i, rest, trivial, rfl, hc'.1, ?_, ?_⟩)
        · simpa using hc'.2
        · simp only [if_neg hc]
  · simp

theorem journalAlloc_journalStep (n : Slot) (e : JEntry) (s : State) : JournalStep n s (journalAlloc n e s) := by
  obtain ⟨-, h⟩ | ⟨-, h⟩ | ⟨i, rest, -, -, -, -, h⟩ := journalAlloc_cases n e s <;> rw [h]
  · exact JournalStep.refl n s
  · exact reportPartFault_journalStep n s
  · exact (withPool_journalStep n s _).trans (modJournal_journalStep n _ _)

/-- What a freeing can do: nothing in an event that has reported an error, a report, or one entry returned. -/
theorem journalFreeOne_cases (n : Slot) (h : Held) (s : State) :
    s.partFault = true ∧ journalFreeOne n h s = s ∨
      s.partFault = false ∧ journalFreeOne n h s = reportPartFault s ∨
      s.partFault = false ∧ s.pool.isFree h.id = false ∧ s.pool.freeCount ≠ Config.journalPool ∧
        journalFreeOne n h s = modJournal n (fun l => l.filter (fun x => x.id != h.id))
          { s with pool :=
            { freeCount := s.pool.freeCount + 1, freeList := s.pool.freeList ++ [h.id], freeMarks := s.pool.marked h.id,
              keepMap := s.pool.keepMap.filter (fun k => k.id != h.id) } } := by
  unfold journalFreeOne
  cases hf : s.partFault
  · simp only [Bool.false_eq_true, if_false]
    by_cases hc : s.pool.isFree h.id = true ∨ s.pool.freeCount = Config.journalPool
    · simp [hc]
    · have hc' := not_or.mp hc
      refine .inr (.inr ⟨trivial, ?_, hc'.2, ?_⟩)
      · simpa using hc'.1
      · simp only [if_neg hc]
  · simp

theorem journalFreeOne_journalStep (n : Slot) (h : Held) (s : State) : JournalStep n s (journalFreeOne n h s) := by
  obtain ⟨-, e⟩ | ⟨-, e⟩ | ⟨-, -, -, e⟩ := journalFreeOne_cases n h s <;> rw [e]
  · exact JournalStep.refl n s
  · exact reportPartFault_journalStep n s
  · exact (withPool_journalStep n s _).trans (modJournal_journalStep n _ _)

theorem journalFreeAll_journalStep (n : Slot) : ∀ (l : List Held) (s : State), JournalStep n s (journalFreeAll n l s)
  | [], s => JournalStep.refl n s
  | h :: rest, s => (journalFreeOne_journalStep n h s).trans (journalFreeAll_journalStep n rest _)

theorem journalFree_journalStep (n : Slot) (s : State) : JournalStep n s (journalFree n s) :=
  (journalFreeAll_journalStep n _ s).trans (modCard_journalStep n _ _ rfl)

theorem journalRestart_journalStep (n : Slot) (s : State) : JournalStep n s (journalRestart n s) :=
  (journalFree_journalStep n s).trans (modCard_journalStep n _ _ rfl)

theorem makeIncomplete_journalStep (n : Slot) (s : State) : JournalStep n s (makeIncomplete n s) := by
  unfold makeIncomplete
  split
  · exact JournalStep.refl n s
  · exact (modCard_journalStep n _ s rfl).trans (journalFree_journalStep n _)

/-! ## Recording, staling and replay -/

theorem appendEntry_journalStep (n : Slot) (e : JEntry) (s : State) : JournalStep n s (appendEntry n e s) := by
  unfold appendEntry
  split
  · exact journalAlloc_journalStep n e s
  · exact makeIncomplete_journalStep n s

theorem recordKeep_journalStep (n : Slot) (w : WordNo) (v : Word32) (ix : Fin 8) (s : State) :
    JournalStep n s (recordKeep n w v ix s) := by
  unfold recordKeep
  split
  · exact appendEntry_journalStep n _ s
  · split
    · exact makeIncomplete_journalStep n s
    · exact modJournal_journalStep n _ s

theorem recordSequence_journalStep (n : Slot) (w : WordNo) (v : Word32) (ix : Fin 8) (r : WordRange) (s : State) :
    JournalStep n s (recordSequence n w v ix r s) := by
  unfold recordSequence
  split
  · exact (journalFreeAll_journalStep n _ s).trans (appendEntry_journalStep n _ _)
  · exact appendEntry_journalStep n _ s

/-- An acknowledged write is recorded within its slot's journal. -/
theorem recordWrite_journalStep (n : Slot) (q : QEntry) (s : State) : JournalStep n s (recordWrite n q s) := by
  unfold recordWrite
  split
  · exact JournalStep.refl n s
  · split
    · exact recordKeep_journalStep n _ _ _ s
    · exact recordSequence_journalStep n _ _ _ _ s
    · exact JournalStep.refl n s

theorem markStale_journalStep (n : Slot) (s : State) : JournalStep n s (markStale n s) := modJournal_journalStep n _ s

theorem staleJournal_journalStep (n : Slot) (s : State) : JournalStep n s (staleJournal n s) :=
  (markStale_journalStep n s).trans (modCard_journalStep n _ _ rfl)

theorem confirmRecord_journalStep (n : Slot) (s : State) : JournalStep n s (confirmRecord n s) :=
  (modJournal_journalStep n _ s).trans (modCard_journalStep n _ _ rfl)

theorem refuseRecord_journalStep (n : Slot) (s : State) : JournalStep n s (refuseRecord n s) := by
  unfold refuseRecord
  split
  · exact modCard_journalStep n _ _ rfl
  · exact (journalFreeOne_journalStep n _ s).trans (modCard_journalStep n _ _ rfl)

/-- A stale mark is the other state with the check bit turned, or nothing where the entry is STALE already. -/
theorem Held.stale_state (h : Held) : h.stale.entry.state = .stale := by
  unfold Held.stale
  split
  · assumption
  · rename_i e
    cases hs : h.entry.state
    · simp [JEntry.flip, hs, EntryState.other]
    · exact absurd hs e

/-- A stale mark keeps which entry it is. -/
theorem Held.stale_id (h : Held) : h.stale.id = h.id := by
  unfold Held.stale
  split <;> rfl

end Sys2Proof.Machine
end

