-- ==== Sys2Proof/Laws/Queue.lean ====
section
/-!
SUPPORT. What the Write Queue Manager's operations can do (R44, R46, R47, R57).
-/

namespace Sys2Proof.Machine

/-! ## The low mark (R47) -/

/-- The low mark computed anew is all that changes. -/
theorem updateLowMark_eq (s : State) :
    updateLowMark s = { s with wqm := { s.wqm with lowMark := (earliest s.headNumbers).getD s.wqm.nextSeq } } := rfl

@[simp] theorem updateLowMark_slot (s : State) (n : Slot) : (updateLowMark s).slot n = s.slot n := rfl
@[simp] theorem updateLowMark_slots (s : State) : (updateLowMark s).slots = s.slots := rfl
@[simp] theorem updateLowMark_loader (s : State) : (updateLowMark s).loader = s.loader := rfl
@[simp] theorem updateLowMark_pool (s : State) : (updateLowMark s).pool = s.pool := rfl
@[simp] theorem updateLowMark_port (s : State) : (updateLowMark s).port = s.port := rfl
@[simp] theorem updateLowMark_rpe (s : State) : (updateLowMark s).rpe = s.rpe := rfl
@[simp] theorem updateLowMark_pacer (s : State) : (updateLowMark s).pacer = s.pacer := rfl
@[simp] theorem updateLowMark_partFault (s : State) : (updateLowMark s).partFault = s.partFault := rfl
@[simp] theorem updateLowMark_pending (s : State) : (updateLowMark s).pending = s.pending := rfl
@[simp] theorem updateLowMark_free (s : State) : (updateLowMark s).wqm.free = s.wqm.free := rfl
@[simp] theorem updateLowMark_nextSeq (s : State) : (updateLowMark s).wqm.nextSeq = s.wqm.nextSeq := rfl

/-- The earliest of some numbers is one of them. -/
theorem earliest_mem : ∀ (l : List Seq) (x : Seq), earliest l = some x → x ∈ l
  | [], _, h => by cases h
  | y :: rest, x, h => by
    unfold earliest at h
    cases e : earliest rest with
    | none => rw [e] at h; cases h; exact List.mem_cons_self
    | some z =>
      rw [e] at h
      dsimp only at h
      split at h
      · cases h; exact List.mem_cons_of_mem _ (earliest_mem rest x e)
      · cases h; exact List.mem_cons_self

/-- There is an earliest number unless there is none. -/
theorem earliest_eq_none (l : List Seq) : earliest l = none ↔ l = [] := by
  cases l with
  | nil => simp [earliest]
  | cons y rest =>
    unfold earliest
    cases earliest rest with
    | none => simp
    | some z => dsimp only; split <;> simp

/-! ## Acceptance (R44) -/

/-- An accepted write is all that changes in its queue. -/
theorem acceptWrite_slot (n m : Slot) (w : WordNo) (v : Word32) (k : WriteKind) (c : Option RangeClass) (s : State) :
    (acceptWrite n w v k c s).slot m =
      if m = n then
        { s.slot n with queue := (s.slot n).queue ++
            [{ seq := s.wqm.nextSeq, word := w, value := v, kind := k, cls := c, tag := none }] }
      else s.slot m := by
  unfold acceptWrite modQueue
  rw [modSlot_slot]
  rfl

@[simp] theorem acceptWrite_wqm (n : Slot) (w : WordNo) (v : Word32) (k : WriteKind) (c : Option RangeClass) (s : State) :
    (acceptWrite n w v k c s).wqm =
      { free := s.wqm.free - 1, nextSeq := s.wqm.nextSeq + 1, lowMark := s.wqm.lowMark } := rfl

/-- An accepted write changes nothing but its queue and the manager's counts. -/
theorem acceptWrite_frame (n : Slot) (w : WordNo) (v : Word32) (k : WriteKind) (c : Option RangeClass) (s : State) :
    (acceptWrite n w v k c s).loader = s.loader ∧ (acceptWrite n w v k c s).pool = s.pool ∧
      (acceptWrite n w v k c s).port = s.port ∧ (acceptWrite n w v k c s).rpe = s.rpe ∧
      (acceptWrite n w v k c s).pacer = s.pacer ∧ (acceptWrite n w v k c s).partFault = s.partFault ∧
      (acceptWrite n w v k c s).pending = s.pending := ⟨rfl, rfl, rfl, rfl, rfl, rfl, rfl⟩

/-! ## Retirement and discarding (R46, R57) -/

/-- Nothing has changed but slot `n`'s queue and link and the manager's counts. -/
structure QueueStep (n : Slot) (s t : State) : Prop where
  loader : t.loader = s.loader
  pool : t.pool = s.pool
  nextSeq : t.wqm.nextSeq = s.wqm.nextSeq
  port : t.port = s.port
  rpe : t.rpe = s.rpe
  pacer : t.pacer = s.pacer
  partFault : t.partFault = s.partFault
  pending : t.pending = s.pending
  others : OthersKept n s t
  framer : (t.slot n).framer = (s.slot n).framer
  card : (t.slot n).card = (s.slot n).card
  journal : (t.slot n).journal = (s.slot n).journal
  entries : t.wqm.free + (t.slot n).queue.length = s.wqm.free + (s.slot n).queue.length

theorem QueueStep.refl (n : Slot) (s : State) : QueueStep n s s :=
  ⟨rfl, rfl, rfl, rfl, rfl, rfl, rfl, rfl, fun _ _ => rfl, rfl, rfl, rfl, rfl⟩

theorem QueueStep.trans {n : Slot} {s t u : State} (h : QueueStep n s t) (k : QueueStep n t u) : QueueStep n s u :=
  ⟨k.loader.trans h.loader, k.pool.trans h.pool, k.nextSeq.trans h.nextSeq, k.port.trans h.port, k.rpe.trans h.rpe,
    k.pacer.trans h.pacer, k.partFault.trans h.partFault, k.pending.trans h.pending,
    fun m hm => (k.others m hm).trans (h.others m hm), k.framer.trans h.framer, k.card.trans h.card,
    k.journal.trans h.journal, k.entries.trans h.entries⟩

/-- A link's step moves no entry of a queue. -/
theorem LinkStep.queueStep {n : Slot} {s t : State} (h : LinkStep n s t) : QueueStep n s t :=
  ⟨h.loader, h.pool, congrArg Wqm.nextSeq h.wqm, h.port, h.rpe, h.pacer, h.partFault, h.pending, h.others, h.framer, h.card,
    h.journal, by
      rw [congrArg Wqm.free h.wqm]
      have := congrArg List.length h.queue
      simp only [untagged_length] at this
      omega⟩

theorem retireHead_queueStep (n : Slot) (s : State) : QueueStep n s (retireHead n s) := by
  unfold retireHead
  split
  · exact QueueStep.refl n s
  · rename_i q rest h
    refine ⟨rfl, rfl, rfl, rfl, rfl, rfl, rfl, rfl, fun m e => ?_, ?_, ?_, ?_, ?_⟩
    · rw [updateLowMark_slot, modQueue_slot_ne n m _ _ e]; rfl
    · simp
    · simp
    · simp
    · simp only [updateLowMark_slot, updateLowMark_free, modQueue_queue_self, modQueue_wqm, h, List.length_cons]
      omega

/-- The head is gone and the rest of the queue stands. -/
theorem retireHead_queue (n : Slot) (s : State) : ((retireHead n s).slot n).queue = (s.slot n).queue.tail := by
  unfold retireHead
  split
  · rename_i h; simp [h]
  · rename_i q rest h; simp [h]

theorem discardQueue_queueStep (n : Slot) (s : State) : QueueStep n s (discardQueue n s) := by
  unfold discardQueue
  split
  · exact QueueStep.refl n s
  · rename_i q rest h
    have k := abandonHead_linkStep n s
    refine ⟨rfl, rfl, rfl, rfl, rfl, rfl, rfl, rfl, fun m e => ?_, ?_, ?_, ?_, ?_⟩
    · rw [updateLowMark_slot, modQueue_slot_ne n m _ _ e]
      exact k.others m e
    · simp [k.framer]
    · simp [k.card]
    · simp [k.journal]
    · simp [h]

/-- Nothing is left in a discarded queue. -/
theorem discardQueue_queue (n : Slot) (s : State) : ((discardQueue n s).slot n).queue = [] := by
  unfold discardQueue
  split
  · assumption
  · simp

end Sys2Proof.Machine
end

