-- ==== Sys2Proof/Laws/Cards.lean ====
section
/-!
SUPPORT. What the Relink Controller's operations can do: a move between card states, and that every operation on card `n` leaves
every other slot, every framer, the profile and the commands waiting as they were.
-/

namespace Sys2Proof.Machine

/-! ## The steps of one slot -/

/-- Nothing has changed in any other slot, in any framer, in the profile and mode, the next sequence number, and the commands
waiting. -/
structure SlotStep (n : Slot) (s t : State) : Prop where
  loader : t.loader = s.loader
  pending : t.pending = s.pending
  nextSeq : t.wqm.nextSeq = s.wqm.nextSeq
  others : OthersKept n s t
  framer : (t.slot n).framer = (s.slot n).framer

theorem SlotStep.refl (n : Slot) (s : State) : SlotStep n s s := ⟨rfl, rfl, rfl, fun _ _ => rfl, rfl⟩

theorem SlotStep.trans {n : Slot} {s t u : State} (h : SlotStep n s t) (k : SlotStep n t u) : SlotStep n s u :=
  ⟨k.loader.trans h.loader, k.pending.trans h.pending, k.nextSeq.trans h.nextSeq,
    fun m hm => (k.others m hm).trans (h.others m hm), k.framer.trans h.framer⟩

theorem SlotStep.mode {n : Slot} {s t : State} (h : SlotStep n s t) : t.mode = s.mode := congrArg Loader.mode h.loader

/-- One slot's step keeps every framer. -/
theorem SlotStep.framers {n : Slot} {s t : State} (h : SlotStep n s t) (m : Slot) :
    (t.slot m).framer = (s.slot m).framer := by
  by_cases e : m = n
  · subst e; exact h.framer
  · rw [h.others m e]

theorem LinkStep.slotStep {n : Slot} {s t : State} (h : LinkStep n s t) : SlotStep n s t :=
  ⟨h.loader, h.pending, congrArg Wqm.nextSeq h.wqm, h.others, h.framer⟩

theorem JournalStep.slotStep {n : Slot} {s t : State} (h : JournalStep n s t) : SlotStep n s t :=
  ⟨h.loader, h.pending, congrArg Wqm.nextSeq h.wqm, h.others, h.framer⟩

theorem QueueStep.slotStep {n : Slot} {s t : State} (h : QueueStep n s t) : SlotStep n s t :=
  ⟨h.loader, h.pending, h.nextSeq, h.others, h.framer⟩

theorem modCard_slotStep (n : Slot) (f : Card → Card) (s : State) : SlotStep n s (modCard n f s) :=
  ⟨rfl, rfl, rfl, fun m h => modCard_slot_ne n m f s h, by simp⟩

theorem withPort_slotStep (n : Slot) (s : State) (p : Port) : SlotStep n s { s with port := p } :=
  ⟨rfl, rfl, rfl, fun _ _ => rfl, rfl⟩

theorem respond_slotStep (n : Slot) (r : Response) (s : State) : SlotStep n s (respond r s) :=
  ⟨rfl, rfl, rfl, fun _ _ => rfl, rfl⟩

theorem withRpe_slotStep (n : Slot) (s : State) (r : Rpe) : SlotStep n s { s with rpe := r } :=
  ⟨rfl, rfl, rfl, fun _ _ => rfl, rfl⟩

theorem withdrawClaim_slotStep (n m : Slot) (s : State) : SlotStep n s (withdrawClaim m s) :=
  ⟨rfl, rfl, rfl, fun _ _ => rfl, rfl⟩

theorem releaseReplay_slotStep (n m : Slot) (s : State) : SlotStep n s (releaseReplay m s) :=
  ⟨rfl, rfl, rfl, fun _ _ => rfl, rfl⟩

theorem joinList_slotStep (n m : Slot) (s : State) : SlotStep n s (joinList m s) :=
  ⟨rfl, rfl, rfl, fun _ _ => rfl, rfl⟩

/-! ## Releasing from the Replay Engine (R156) -/

@[simp] theorem releaseReplay_slot (n m : Slot) (s : State) : (releaseReplay n s).slot m = s.slot m := rfl

/-- A released card holds no place on the list. -/
theorem releaseReplay_list (n : Slot) (s : State) : ∀ e ∈ (releaseReplay n s).rpe.list, e.slot ≠ n := by
  intro e h
  simpa using (List.mem_filter.mp h).2

/-- A released card has no claim. -/
theorem releaseReplay_claims (n : Slot) (s : State) : ∀ c ∈ (releaseReplay n s).pacer.claims, c.slot ≠ n := by
  intro c h
  simpa using (List.mem_filter.mp h).2

/-- A released card holds no channel, and every other card keeps its own. -/
theorem releaseReplay_channel (n : Slot) (s : State) (c : ChannelNo) :
    (releaseReplay n s).channel c = (s.channel c).filter (fun u => u.slot != n) := by
  simp [releaseReplay, withdrawClaim, State.channel]

/-! ## The ready timer (R117) -/

theorem readyTimerOnMove_slotStep (n : Slot) (s : State) : SlotStep n s (readyTimerOnMove n s) := by
  unfold readyTimerOnMove
  split <;> exact modCard_slotStep n _ s

theorem readyTimerOnLink_slotStep (n : Slot) (b : Bool) (s : State) : SlotStep n s (readyTimerOnLink n b s) := by
  unfold readyTimerOnLink
  split
  · split
    · exact SlotStep.refl n s
    · exact modCard_slotStep n _ s
  · exact modCard_slotStep n _ s

/-- The ready timer's check at a move changes that timer alone. -/
theorem readyTimerOnMove_card (n : Slot) (s : State) :
    ∃ t : Timer, readyTimerOnMove n s = modCard n (fun c => { c with ready := t }) s := by
  unfold readyTimerOnMove
  split
  · refine ⟨(s.slot n).card.ready.startIfStopped, ?_⟩
    simp [modCard, modSlot]
  · exact ⟨.stopped, rfl⟩

/-! ## Leaving service (R76, R78, R81, R121) -/

theorem endWaitingRead_slotStep (n : Slot) (s : State) : SlotStep n s (endWaitingRead n s) := by
  unfold endWaitingRead
  split
  · exact SlotStep.refl n s
  · rename_i r h
    split
    · have k := ((withPort_slotStep n s { s.port with current := none }).trans (respond_slotStep n .retry _)).trans
        (modLink_linkStep n (fun l =>
          { l with pendingRead := none, outstanding := l.outstanding.filter (fun t => t.source != .read) }) _).slotStep
      split
      · exact k.trans (askUnlockIfAligned_linkStep n _).slotStep
      · exact k
    · exact SlotStep.refl n s

/-- Afterwards the bus waits for no read of this card. -/
theorem endWaitingRead_current (n : Slot) (s : State) : (endWaitingRead n s).port.current.any (fun r => r.slot == n) = false := by
  unfold endWaitingRead
  split
  · rename_i h; simp [h]
  · rename_i r h
    split
    · split
      · rw [(askUnlockIfAligned_linkStep n _).port]; rfl
      · rfl
    · rename_i e; simpa [h] using e

theorem dropLock_slotStep (n : Slot) (s : State) : SlotStep n s (dropLock n s) := by
  unfold dropLock
  split
  · exact SlotStep.refl n s
  · split
    · exact (withPort_slotStep n s _).trans (askUnlockIfAligned_linkStep n _).slotStep
    · exact SlotStep.refl n s

/-- Afterwards no lock is open on this card. -/
theorem dropLock_lock (n : Slot) (s : State) : (dropLock n s).lockNames n = false := by
  unfold dropLock State.lockNames
  split
  · rename_i h; simp [h]
  · rename_i l h
    split
    · rw [(askUnlockIfAligned_linkStep n _).port]; rfl
    · rename_i e; simpa [h] using e

theorem leaveService_slotStep (n : Slot) (b : Bool) (s : State) : SlotStep n s (leaveService n b s) :=
  ((endWaitingRead_slotStep n s).trans (dropLock_slotStep n _)).trans (modCard_slotStep n _ _)

/-! ## Moves -/

theorem moveTo_slotStep (n : Slot) (st : CardState) (s : State) : SlotStep n s (moveTo n st s) := by
  unfold moveTo
  refine SlotStep.trans ?_ (((withdrawRelink_linkStep n _).slotStep.trans (modCard_slotStep n _ _)).trans
    (readyTimerOnMove_slotStep n _))
  split
  · exact leaveService_slotStep n _ s
  · exact SlotStep.refl n s

/-- A move ends in the state it names. -/
theorem moveTo_state (n : Slot) (st : CardState) (s : State) : ((moveTo n st s).slot n).card.state = st := by
  unfold moveTo
  obtain ⟨t, h⟩ := readyTimerOnMove_card n (modCard n (fun c => c.leaving st) (withdrawRelink n
    (if (s.slot n).card.state = .inService ∧ st ≠ .inService then leaveService n (st = .lossHold) s else s)))
  simp only [h, modCard_card_self]
  rfl

theorem enterLossHold_slotStep (n : Slot) (s : State) : SlotStep n s (enterLossHold n s) := by
  unfold enterLossHold
  have k := (moveTo_slotStep n .lossHold s).trans (modCard_slotStep n (fun c => { c with holdOff := .running 0 }) _)
  dsimp only
  split
  · exact k.trans (cutOffOutstanding_linkStep n _ _).slotStep
  · exact k

/-- A card that enters LOSS_HOLD is there with its hold-off timer started. -/
theorem enterLossHold_card (n : Slot) (s : State) :
    ((enterLossHold n s).slot n).card.state = .lossHold ∧ ((enterLossHold n s).slot n).card.holdOff = .running 0 := by
  have h : ∀ t : State, ((modCard n (fun c => { c with holdOff := .running 0 }) t).slot n).card =
      { (t.slot n).card with holdOff := .running 0 } := fun t => by simp
  unfold enterLossHold
  dsimp only
  split
  · rw [(cutOffOutstanding_linkStep n _ _).card, h]
    exact ⟨moveTo_state n .lossHold s, rfl⟩
  · rw [h]
    exact ⟨moveTo_state n .lossHold s, rfl⟩

theorem enterService_slotStep (n : Slot) (s : State) : SlotStep n s (enterService n s) :=
  (moveTo_slotStep n .inService s).trans (modCard_slotStep n _ _)

/-- A card that enters service is there with expected-restart clear and its stability timer started. -/
theorem enterService_card (n : Slot) (s : State) :
    ((enterService n s).slot n).card.state = .inService ∧ ((enterService n s).slot n).card.expectedRestart = false ∧
      ((enterService n s).slot n).card.stability = .running 0 := by
  unfold enterService
  rw [modCard_card_self]
  exact ⟨moveTo_state n .inService s, rfl, rfl⟩

theorem checkSupply_slotStep (n : Slot) (s : State) : SlotStep n s (checkSupply n s) := by
  unfold checkSupply
  split
  · exact SlotStep.refl n s
  · exact enterLossHold_slotStep n s

theorem enterIdentify_slotStep (n : Slot) (s : State) : SlotStep n s (enterIdentify n s) :=
  ((moveTo_slotStep n .identify s).trans (setAsideSuspended_linkStep n _).slotStep).trans (handOver_linkStep n _ _ _).slotStep

/-- A card that enters IDENTIFY is there with an identity read handed over. -/
theorem enterIdentify_card (n : Slot) (s : State) :
    ((enterIdentify n s).slot n).card.state = .identify ∧
      ((enterIdentify n s).slot n).link.pendingRelink = some { what := .identity, forced := false } := by
  unfold enterIdentify
  rw [(handOver_linkStep n _ _ _).card, (setAsideSuspended_linkStep n _).card]
  exact ⟨moveTo_state n .identify s, by simp [handOver]⟩

theorem identifyIfUp_slotStep (n : Slot) (s : State) : SlotStep n s (identifyIfUp n s) := by
  unfold identifyIfUp
  split
  · exact enterIdentify_slotStep n s
  · exact SlotStep.refl n s

theorem enterDown_slotStep (n : Slot) (b : Bool) (e : Nat) (s : State) : SlotStep n s (enterDown n b e s) := by
  unfold enterDown
  have k := (moveTo_slotStep n .down s).trans (modCard_slotStep n (fun c =>
    { c with expectedRestart := b, absence := .running e, absenceKept := none, restartWait := false }) _)
  dsimp only
  split
  · exact k.trans (modCard_slotStep n _ _)
  · exact (k.trans (readyTimerOnMove_slotStep n _)).trans (identifyIfUp_slotStep n _)

theorem becomeEmpty_slotStep (n : Slot) (b : Bool) (s : State) : SlotStep n s (becomeEmpty n b s) :=
  (((journalRestart_journalStep n s).slotStep.trans (discardQueue_queueStep n _).slotStep).trans
    (moveTo_slotStep n .empty _)).trans (modCard_slotStep n _ _)

theorem tryBind_slotStep (n : Slot) (b : Bool) (s : State) : SlotStep n s (tryBind n b s) := by
  unfold tryBind
  split
  · exact SlotStep.refl n s
  · exact (handOver_linkStep n _ _ s).slotStep

theorem bindCard_slotStep (n : Slot) (i : Identity) (s : State) : SlotStep n s (bindCard n i s) :=
  (modCard_slotStep n _ s).trans (enterService_slotStep n _)

theorem takeEffectAtOnce_slotStep (n : Slot) (s : State) : SlotStep n s (takeEffectAtOnce n s) := by
  unfold takeEffectAtOnce
  dsimp only
  split
  · refine SlotStep.trans ?_ (readyTimerOnMove_slotStep n _)
    split
    · exact (becomeEmpty_slotStep n _ s).trans (tryBind_slotStep n _ _)
    · exact becomeEmpty_slotStep n _ s
  · exact becomeEmpty_slotStep n _ s

/-! ## Quarantine and card failures -/

theorem quarantine_slotStep (n : Slot) (r : Reason) (s : State) : SlotStep n s (quarantine n r s) := by
  unfold quarantine
  have k := ((((((abandonAll_linkStep n s).slotStep.trans (moveTo_slotStep n .quarantined _)).trans
    (dropLock_slotStep n _))).trans (discardQueue_queueStep n _).slotStep).trans
    (releaseReplay_slotStep n n _)).trans (modCard_slotStep n (fun c => { c.timersStopped with reason := some r }) _)
  dsimp only
  split
  · exact k.trans (journalFree_journalStep n _).slotStep
  · exact k

theorem forceRestartIfAligned_slotStep (n : Slot) (s : State) : SlotStep n s (forceRestartIfAligned n s) := by
  unfold forceRestartIfAligned
  split
  · exact (handOver_linkStep n _ _ s).slotStep
  · exact SlotStep.refl n s

theorem cardFailure_slotStep (n : Slot) (k : FailureKind) (s : State) : SlotStep n s (cardFailure n k s) := by
  unfold cardFailure
  have h := modCard_slotStep n Card.failed s
  dsimp only
  split
  · exact h.trans (quarantine_slotStep n _ _)
  · exact (((h.trans (releaseReplay_slotStep n n _)).trans (abandonAll_linkStep n _).slotStep).trans
      (enterDown_slotStep n _ _ _)).trans (forceRestartIfAligned_slotStep n _)

theorem reportParity_slotStep (n : Slot) (s : State) : SlotStep n s (reportParity n s) := by
  unfold reportParity
  cases (s.slot n).card.state
  case empty => exact SlotStep.refl n s
  case quarantined => exact SlotStep.refl n s
  case inService => exact (makeIncomplete_journalStep n s).slotStep
  all_goals exact quarantine_slotStep n _ s

/-! ## Identification -/

theorem renew_slotStep (n : Slot) (s : State) : SlotStep n s (renew n s) := by
  unfold renew
  have k := (abandonAll_linkStep n s).slotStep.trans (modCard_slotStep n (fun c => { c with expectedRestart := false }) _)
  dsimp only
  split
  · exact k.trans (handOver_linkStep n _ _ _).slotStep
  · split
    · exact (k.trans (enterDown_slotStep n _ _ _)).trans (handOver_linkStep n _ _ _).slotStep
    · exact ((k.trans (staleJournal_journalStep n _).slotStep).trans (joinList_slotStep n n _)).trans (moveTo_slotStep n _ _)

theorem returnToService_slotStep (n : Slot) (s : State) : SlotStep n s (returnToService n s) := by
  unfold returnToService
  split
  · exact (enterService_slotStep n s).trans (resumeHead_linkStep n _).slotStep
  · exact enterDown_slotStep n _ _ s

theorem judgeFresh_slotStep (n : Slot) (s : State) : SlotStep n s (judgeFresh n s) := by
  unfold judgeFresh
  split
  · exact quarantine_slotStep n _ s
  · exact renew_slotStep n s

theorem compareIdentity_slotStep (n : Slot) (i : Identity) (f : Bool) (s : State) : SlotStep n s (compareIdentity n i f s) := by
  unfold compareIdentity
  split
  · exact SlotStep.refl n s
  · split
    · exact quarantine_slotStep n _ s
    · split
      · split
        · exact ((modCard_slotStep n _ s).trans (modCard_slotStep n _ _)).trans (judgeFresh_slotStep n _)
        · exact quarantine_slotStep n _ s
      · have k := modCard_slotStep n (fun c => { c with bound := some i }) s
        dsimp only [rebind]
        split
        · exact k.trans (judgeFresh_slotStep n _)
        · split
          · exact k.trans (cardFailure_slotStep n _ _)
          · exact k.trans (returnToService_slotStep n _)

theorem judgeEmpty_slotStep (n : Slot) (i : Identity) (f : Bool) (s : State) : SlotStep n s (judgeEmpty n i f s) := by
  unfold judgeEmpty
  split
  · exact (modCard_slotStep n _ s).trans (handOver_linkStep n _ _ _).slotStep
  · exact ((bindCard_slotStep n i s).trans (makeIncomplete_journalStep n _).slotStep).trans (checkSupply_slotStep n _)

theorem judgeWatched_slotStep (n : Slot) (i : Identity) (f : Bool) (s : State) : SlotStep n s (judgeWatched n i f s) := by
  unfold judgeWatched
  split
  · exact SlotStep.refl n s
  · split
    · exact ((modCard_slotStep n _ s).trans (moveTo_slotStep n _ _)).trans (compareIdentity_slotStep n i f _)
    · exact modCard_slotStep n _ s

theorem judgeCleared_slotStep (n : Slot) (i : Identity) (s : State) : SlotStep n s (judgeCleared n i s) := by
  unfold judgeCleared
  split
  · exact SlotStep.refl n s
  · split
    · exact ((modCard_slotStep n _ s).trans (modCard_slotStep n _ _)).trans (handOver_linkStep n _ _ _).slotStep
    · exact (((becomeEmpty_slotStep n _ s).trans (modCard_slotStep n _ _)).trans (readyTimerOnMove_slotStep n _)).trans
        (handOver_linkStep n _ _ _).slotStep

theorem watchRead_slotStep (n : Slot) (s : State) : SlotStep n s (watchRead n s) := by
  unfold watchRead
  split
  · exact (handOver_linkStep n _ _ s).slotStep
  · exact SlotStep.refl n s

theorem identityTaken_slotStep (n : Slot) (i : Identity) (b : Bool) (s : State) : SlotStep n s (identityTaken n i b s) := by
  unfold identityTaken
  split
  · split
    · exact judgeCleared_slotStep n i s
    · exact SlotStep.refl n s
  · exact judgeEmpty_slotStep n i _ s
  · exact (handOver_linkStep n _ _ s).slotStep
  · exact compareIdentity_slotStep n i _ s
  · exact (handOver_linkStep n _ _ s).slotStep
  · split
    · exact judgeWatched_slotStep n i _ s
    · exact SlotStep.refl n s
  · split
    · exact (handOver_linkStep n _ _ s).slotStep
    · exact SlotStep.refl n s
  · exact SlotStep.refl n s

/-! ## Link events -/

theorem returnFromLoss_slotStep (n : Slot) (s : State) : SlotStep n s (returnFromLoss n s) := by
  unfold returnFromLoss
  have k := (enterService_slotStep n s).trans (resumeHead_linkStep n _).slotStep
  split
  · exact enterIdentify_slotStep n s
  · dsimp only
    split
    · exact k.trans (handOver_linkStep n _ _ _).slotStep
    · exact k

theorem acquired_slotStep (n : Slot) (b : Bool) (s : State) : SlotStep n s (acquired n b s) := by
  unfold acquired
  have k := modCard_slotStep n (fun c => { c with retired := false }) s
  refine k.trans (SlotStep.trans ?_ (readyTimerOnLink_slotStep n _ _))
  split
  · split
    · exact tryBind_slotStep n _ _
    · exact SlotStep.refl n _
  · split
    · exact enterIdentify_slotStep n _
    · split
      · exact returnFromLoss_slotStep n _
      · exact SlotStep.refl n _
  · exact identifyIfUp_slotStep n _
  · exact watchRead_slotStep n _
  all_goals exact SlotStep.refl n _

theorem freshRise_slotStep (n : Slot) (s : State) : SlotStep n s (freshRise n s) := by
  unfold freshRise
  split
  · split
    · exact SlotStep.refl n s
    · exact (abandonAll_linkStep n s).slotStep.trans (enterIdentify_slotStep n _)
  · exact enterIdentify_slotStep n s
  · exact (modCard_slotStep n _ s).trans (identifyIfUp_slotStep n _)
  · exact SlotStep.refl n s

theorem readyRise_slotStep (n : Slot) (s : State) : SlotStep n s (readyRise n s) := by
  unfold readyRise
  split
  · exact tryBind_slotStep n _ s
  · exact identifyIfUp_slotStep n s
  · exact watchRead_slotStep n s
  · exact SlotStep.refl n s

theorem pgoodChange_slotStep (n : Slot) (b : Bool) (s : State) : SlotStep n s (pgoodChange n b s) := by
  unfold pgoodChange
  split
  · split
    · exact SlotStep.refl n s
    · exact enterLossHold_slotStep n s
  · split
    · exact returnFromLoss_slotStep n s
    · exact SlotStep.refl n s
  · split
    · exact identifyIfUp_slotStep n s
    · exact SlotStep.refl n s
  · exact SlotStep.refl n s

theorem linkLost_slotStep (n : Slot) (s : State) : SlotStep n s (linkLost n s) := by
  unfold linkLost
  split
  · exact (withdrawRelink_linkStep n s).slotStep.trans (modCard_slotStep n _ _)
  · exact enterLossHold_slotStep n s
  · exact SlotStep.refl n s
  · exact modCard_slotStep n _ s
  · exact cardFailure_slotStep n _ s
  · exact cardFailure_slotStep n _ s
  · exact cardFailure_slotStep n _ s
  · exact cardFailure_slotStep n _ s
  · have k := (withdrawRelink_linkStep n s).slotStep
    dsimp only
    split
    · exact k.trans (takeEffectAtOnce_slotStep n _)
    · exact k

theorem failureReported_slotStep (n : Slot) (src : Source) (s : State) : SlotStep n s (failureReported n src s) := by
  unfold failureReported
  cases (s.slot n).card.state
  case empty =>
    dsimp only
    split
    · exact modCard_slotStep n _ s
    · exact SlotStep.refl n s
  case lossHold => exact SlotStep.refl n s
  case down => exact SlotStep.refl n s
  case quarantined => exact SlotStep.refl n s
  all_goals exact cardFailure_slotStep n _ s

/-! ## Control commands -/

theorem commandInService_slotStep (n : Slot) (c : Command) (s : State) : SlotStep n s (commandInService n c s) := by
  cases c
  · exact ((journalRestart_journalStep n s).slotStep.trans (modCard_slotStep n _ _)).trans (handOver_linkStep n _ _ _).slotStep
  · exact ((markStale_journalStep n s).slotStep.trans (modCard_slotStep n _ _)).trans (enterDown_slotStep n _ _ _)
  · exact becomeEmpty_slotStep n _ s
  · exact (journalRestart_journalStep n s).slotStep

theorem commandQuarantined_slotStep (n : Slot) (c : Command) (s : State) : SlotStep n s (commandQuarantined n c s) := by
  cases c
  · exact (((((journalRestart_journalStep n s).slotStep.trans (modCard_slotStep n _ _)).trans (enterService_slotStep n _)).trans
      (modCard_slotStep n _ _)).trans (handOver_linkStep n _ _ _).slotStep).trans (checkSupply_slotStep n _)
  · exact SlotStep.refl n s
  · exact becomeEmpty_slotStep n _ s
  · exact SlotStep.refl n s

/-- An acknowledged command changes its own slot alone. -/
theorem commandAcked_slotStep (n : Slot) (c : Command) (s : State) : SlotStep n s (commandAcked n c s) := by
  unfold commandAcked
  split
  · exact commandInService_slotStep n c s
  · exact commandQuarantined_slotStep n c s
  · exact SlotStep.refl n s

end Sys2Proof.Machine
end

