-- ==== Sys2Proof/Laws/Events.lean ====
section
/-!
SUPPORT. What the outcomes of transactions and the end of an event can do: no framer, no sequence number, no published profile and
no waiting command changes, and the mode only from NORMAL to UNPROTECTED.
-/

namespace Sys2Proof.Machine

/-! ## Outcomes of transactions -/

theorem answerRead_slotStep (n : Slot) (r : Response) (b : Bool) (s : State) : SlotStep n s (answerRead n r b s) := by
  unfold answerRead
  split
  · exact SlotStep.refl n s
  · split
    · exact (withPort_slotStep n s _).trans (respond_slotStep n r _)
    · exact SlotStep.refl n s

theorem headAcked_slotStep (n : Slot) (s : State) : SlotStep n s (headAcked n s) := by
  unfold headAcked
  split
  · exact SlotStep.refl n s
  · rename_i q rest h
    have k := (retireHead_queueStep n s).slotStep
    dsimp only
    split
    · exact k.trans (commandAcked_slotStep n _ _)
    · split
      · exact k
      · exact k.trans (recordWrite_journalStep n q _).slotStep

theorem headRefused_slotStep (n : Slot) (s : State) : SlotStep n s (headRefused n s) := by
  unfold headRefused
  split
  · exact SlotStep.refl n s
  · have k := (retireHead_queueStep n s).slotStep.trans (modCard_slotStep n (fun c => { c with refused := true }) _)
    dsimp only
    split
    · exact k.trans (askUnlock_linkStep n _).slotStep
    · exact k

theorem setStep_slotStep (n m : Slot) (st : ChannelStep) (s : State) : SlotStep n s (setStep m st s) :=
  withRpe_slotStep n s _

theorem adoptAcked_slotStep (n : Slot) (s : State) : SlotStep n s (adoptAcked n s) := by
  unfold adoptAcked
  split
  · split
    · exact SlotStep.refl n s
    · exact (bindCard_slotStep n _ s).trans (checkSupply_slotStep n _)
  · exact (enterService_slotStep n s).trans (checkSupply_slotStep n _)
  · exact (((releaseReplay_slotStep n n s).trans (modCard_slotStep n _ _)).trans (enterService_slotStep n _)).trans
      (checkSupply_slotStep n _)
  · exact modCard_slotStep n _ s
  · exact SlotStep.refl n s

theorem adoptRefused_slotStep (n : Slot) (s : State) : SlotStep n s (adoptRefused n s) := by
  unfold adoptRefused
  split
  · exact modCard_slotStep n _ s
  · exact cardFailure_slotStep n _ s
  · exact cardFailure_slotStep n _ s
  · exact cardFailure_slotStep n _ s
  · exact SlotStep.refl n s

theorem identityRefused_slotStep (n : Slot) (s : State) : SlotStep n s (identityRefused n s) := by
  unfold identityRefused
  split
  · exact cardFailure_slotStep n _ s
  · exact cardFailure_slotStep n _ s
  · exact SlotStep.refl n s

theorem recordAnswered_slotStep (n : Slot) (b : Bool) (s : State) : SlotStep n s (recordAnswered n b s) := by
  unfold recordAnswered
  split
  · split
    · exact (confirmRecord_journalStep n s).slotStep.trans (setStep_slotStep n n _ _)
    · have k := (refuseRecord_journalStep n s).slotStep
      dsimp only
      split
      · exact k.trans (cardFailure_slotStep n _ _)
      · exact k.trans (setStep_slotStep n n _ _)
  · exact SlotStep.refl n s

theorem ackTaken_slotStep (n : Slot) (src : Source) (s : State) : SlotStep n s (ackTaken n src s) := by
  unfold ackTaken
  split
  · exact headAcked_slotStep n s
  · split
    · exact SlotStep.refl n s
    · exact modCard_slotStep n _ s
    · exact adoptAcked_slotStep n s
    · exact recordAnswered_slotStep n _ s
  · exact SlotStep.refl n s
  · exact SlotStep.refl n s

theorem nakTaken_slotStep (n : Slot) (src : Source) (s : State) : SlotStep n s (nakTaken n src s) := by
  unfold nakTaken
  split
  · exact headRefused_slotStep n s
  · exact answerRead_slotStep n _ _ s
  · split
    · exact identityRefused_slotStep n s
    · exact SlotStep.refl n s
    · exact adoptRefused_slotStep n s
    · exact recordAnswered_slotStep n _ s
  · exact SlotStep.refl n s

theorem dataTaken_slotStep (n : Slot) (src : Source) (v : Word32) (s : State) : SlotStep n s (dataTaken n src v s) := by
  unfold dataTaken
  split
  · exact answerRead_slotStep n _ _ s
  · split
    · exact identityTaken_slotStep n _ _ s
    · exact SlotStep.refl n s
  · exact SlotStep.refl n s
  · exact SlotStep.refl n s

/-- A response changes its own slot alone. -/
theorem takeResponse_slotStep (n : Slot) (r : Resp) (s : State) : SlotStep n s (takeResponse n r s) := by
  unfold takeResponse
  split
  · exact SlotStep.refl n s
  · rename_i t h
    split
    · split
      · exact (modLink_linkStep n _ s).slotStep
      · exact (endAnswered_linkStep n t s).slotStep.trans (ackTaken_slotStep n _ _)
      · exact (endAnswered_linkStep n t s).slotStep.trans (nakTaken_slotStep n _ _)
      · exact (endAnswered_linkStep n t s).slotStep.trans (dataTaken_slotStep n _ _ _)
    · exact SlotStep.refl n s

/-- A failed transaction changes its own slot alone. -/
theorem failTransaction_slotStep (n : Slot) (t : Txn) (s : State) : SlotStep n s (failTransaction n t s) := by
  unfold failTransaction
  have k := (endTransaction_linkStep n s).slotStep
  dsimp only
  split
  · split
    · exact k.trans (takeEffectAtOnce_slotStep n _)
    · exact (k.trans (abandonHead_linkStep n _).slotStep).trans (failureReported_slotStep n _ _)
  · exact (k.trans (answerRead_slotStep n _ _ _)).trans (failureReported_slotStep n _ _)
  · exact k.trans (failureReported_slotStep n _ _)
  · exact k.trans (failureReported_slotStep n _ _)

theorem reportChanges_slotStep (n : Slot) (old new : StatusBits) (b : Bool) (s : State) :
    SlotStep n s (reportChanges n old new b s) := by
  have h1 : ∀ t : State, SlotStep n t (if new.fresh = some true ∧ old.fresh ≠ some true then freshRise n t else t) := fun t => by
    split
    · exact freshRise_slotStep n t
    · exact SlotStep.refl n t
  have h2 : ∀ t : State, SlotStep n t (if new.ready = some true ∧ old.ready ≠ some true then readyRise n t else t) := fun t => by
    split
    · exact readyRise_slotStep n t
    · exact SlotStep.refl n t
  have h3 : ∀ t : State, SlotStep n t (if new.pgood ≠ old.pgood then pgoodChange n (new.pgood == some true) t else t) := fun t => by
    split
    · exact pgoodChange_slotStep n _ t
    · exact SlotStep.refl n t
  exact (((h1 s).trans (h2 _)).trans (h3 _)).trans (readyTimerOnLink_slotStep n b _)

/-! ## The steps of the engines -/

/-- Nothing has changed in any framer, in the profile and mode, the next sequence number, and the commands waiting. -/
structure EngineStep (s t : State) : Prop where
  loader : t.loader = s.loader
  pending : t.pending = s.pending
  nextSeq : t.wqm.nextSeq = s.wqm.nextSeq
  framers : ∀ m : Slot, (t.slot m).framer = (s.slot m).framer

theorem EngineStep.refl (s : State) : EngineStep s s := ⟨rfl, rfl, rfl, fun _ => rfl⟩

theorem EngineStep.trans {s t u : State} (h : EngineStep s t) (k : EngineStep t u) : EngineStep s u :=
  ⟨k.loader.trans h.loader, k.pending.trans h.pending, k.nextSeq.trans h.nextSeq,
    fun m => (k.framers m).trans (h.framers m)⟩

theorem EngineStep.mode {s t : State} (h : EngineStep s t) : t.mode = s.mode := congrArg Loader.mode h.loader

theorem SlotStep.engineStep {n : Slot} {s t : State} (h : SlotStep n s t) : EngineStep s t :=
  ⟨h.loader, h.pending, h.nextSeq, h.framers⟩

theorem withRpe_engineStep (s : State) (r : Rpe) : EngineStep s { s with rpe := r } := ⟨rfl, rfl, rfl, fun _ => rfl⟩

theorem withPacer_engineStep (s : State) (p : Pacer) : EngineStep s { s with pacer := p } := ⟨rfl, rfl, rfl, fun _ => rfl⟩

theorem placeClaim_engineStep (n : Slot) (c : Nat) (k : ClaimKind) (s : State) : EngineStep s (placeClaim n c k s) :=
  withPacer_engineStep s _

theorem withdrawClaim_engineStep (n : Slot) (s : State) : EngineStep s (withdrawClaim n s) := withPacer_engineStep s _

theorem takeChannel_engineStep (c : ChannelNo) (e : ListEntry) (s : State) : EngineStep s (takeChannel c e s) := by
  unfold takeChannel
  exact (((withRpe_engineStep s _).trans (withRpe_engineStep _ _)).trans (modCard_slotStep e.slot _ _).engineStep).trans
    (moveTo_slotStep e.slot _ _).engineStep

theorem applyGrant_engineStep (c : Claim) (s : State) : EngineStep s (applyGrant c s) := by
  unfold applyGrant
  split
  · split
    · split
      · exact takeChannel_engineStep _ _ s
      · exact EngineStep.refl s
    · exact EngineStep.refl s
  · split
    · split
      · exact (handOver_linkStep _ _ _ s).slotStep.engineStep.trans (withRpe_engineStep _ _)
      · exact EngineStep.refl s
    · exact EngineStep.refl s

theorem askRecord_engineStep (u : ChannelUse) (s : State) : EngineStep s (askRecord u s) := by
  unfold askRecord
  split
  · exact withRpe_engineStep s _
  · split
    · exact (reportParity_slotStep _ s).engineStep
    · exact (withRpe_engineStep s _).trans (placeClaim_engineStep _ _ _ _)

theorem considerSupplyLost_engineStep {s t : State} (h : considerSupplyLost s = some t) : EngineStep s t := by
  unfold considerSupplyLost at h
  split at h
  · cases h
  · split at h <;> cases h
    · exact (withdrawClaim_engineStep _ s).trans (withRpe_engineStep _ _)
    · exact (modLink_linkStep _ _ s).slotStep.engineStep

theorem considerGrant_engineStep {s t : State} (h : considerGrant s = some t) : EngineStep s t := by
  unfold considerGrant at h
  split at h
  · cases h
  · split at h
    · cases h
    · split at h
      · cases h
        exact ((withPacer_engineStep s _).trans (withdrawClaim_engineStep _ _)).trans (applyGrant_engineStep _ _)
      · cases h

theorem considerClearFlag_engineStep {s t : State} (h : considerClearFlag s = some t) : EngineStep s t := by
  unfold considerClearFlag at h
  split at h <;> cases h
  exact withRpe_engineStep s _

theorem considerSuspend_engineStep {s t : State} (h : considerSuspend s = some t) : EngineStep s t := by
  unfold considerSuspend at h
  split at h <;> cases h
  rename_i u _
  exact ((releaseReplay_slotStep u.slot u.slot s).engineStep.trans (withRpe_engineStep _ _)).trans
    (moveTo_slotStep u.slot _ _).engineStep

theorem considerChannel_engineStep {s t : State} (h : considerChannel s = some t) : EngineStep s t := by
  unfold considerChannel at h
  split at h
  · cases h
  · split at h <;> cases h
    · exact (handOver_linkStep _ _ _ s).slotStep.engineStep
    · exact askRecord_engineStep _ s

theorem considerAdmissionWithdrawn_engineStep {s t : State} (h : considerAdmissionWithdrawn s = some t) : EngineStep s t := by
  unfold considerAdmissionWithdrawn at h
  split at h <;> cases h
  exact withdrawClaim_engineStep _ s

theorem considerAdmissionPlaced_engineStep {s t : State} (h : considerAdmissionPlaced s = some t) : EngineStep s t := by
  unfold considerAdmissionPlaced at h
  split at h
  · cases h
  · split at h <;> cases h
    exact placeClaim_engineStep _ _ _ s

theorem considerResume_engineStep {s t : State} (h : considerResume s = some t) : EngineStep s t := by
  unfold considerResume at h
  split at h
  · split at h <;> cases h
    exact takeChannel_engineStep _ _ s
  · cases h

theorem considerPreempt_engineStep {s t : State} (h : considerPreempt s = some t) : EngineStep s t := by
  unfold considerPreempt at h
  split at h
  · split at h <;> cases h
    exact withRpe_engineStep s _
  · cases h

/-- What a consideration can be: one of nine. -/
theorem consider_cases {s t : State} (h : consider s = some t) :
    considerSupplyLost s = some t ∨ considerAdmissionWithdrawn s = some t ∨ considerGrant s = some t ∨
      considerClearFlag s = some t ∨ considerSuspend s = some t ∨ considerChannel s = some t ∨
      considerAdmissionPlaced s = some t ∨ considerResume s = some t ∨ considerPreempt s = some t := by
  unfold consider at h
  simp only [Option.or_eq_some_iff] at h
  obtain h | ⟨-, h | ⟨-, h | ⟨-, h | ⟨-, h | ⟨-, h | ⟨-, h | ⟨-, h | ⟨-, h⟩⟩⟩⟩⟩⟩⟩⟩ := h <;> simp only [h, true_or, or_true]

theorem consider_engineStep {s t : State} (h : consider s = some t) : EngineStep s t := by
  obtain h | h | h | h | h | h | h | h | h := consider_cases h
  · exact considerSupplyLost_engineStep h
  · exact considerAdmissionWithdrawn_engineStep h
  · exact considerGrant_engineStep h
  · exact considerClearFlag_engineStep h
  · exact considerSuspend_engineStep h
  · exact considerChannel_engineStep h
  · exact considerAdmissionPlaced_engineStep h
  · exact considerResume_engineStep h
  · exact considerPreempt_engineStep h

/-- What every consideration keeps, the settling of an event keeps. -/
theorem settleWith_induction {P : State → State → Prop} (refl : ∀ s, P s s) (trans : ∀ {s t u}, P s t → P t u → P s u)
    (one : ∀ {s t}, consider s = some t → P s t) : ∀ (k : Nat) (s : State), P s (settleWith k s)
  | 0, s => refl s
  | k + 1, s => by
    unfold settleWith
    cases h : consider s with
    | none => exact refl s
    | some t => exact trans (one h) (settleWith_induction refl trans one k t)

/-- Where no consideration is called for, settling does nothing. -/
theorem settleWith_of_consider_eq_none (k : Nat) (s : State) (h : consider s = none) : settleWith k s = s := by
  cases k with
  | zero => rfl
  | succ k => unfold settleWith; rw [h]

theorem settle_engineStep (s : State) : EngineStep s (settle s) :=
  settleWith_induction EngineStep.refl EngineStep.trans consider_engineStep settleFuel s

/-! ## The end of an event -/

/-- Nothing has changed in any framer, the published profile, the next sequence number and the commands waiting, and the mode only
from NORMAL to UNPROTECTED. -/
structure EventEnd (s t : State) : Prop where
  profile : t.loader.profile = s.loader.profile
  mode : t.mode = s.mode ∨ s.mode = .normal ∧ t.mode = .unprotected
  pending : t.pending = s.pending
  nextSeq : t.wqm.nextSeq = s.wqm.nextSeq
  framers : ∀ m : Slot, (t.slot m).framer = (s.slot m).framer

theorem EngineStep.eventEnd {s t : State} (h : EngineStep s t) : EventEnd s t :=
  ⟨congrArg Loader.profile h.loader, .inl h.mode, h.pending, h.nextSeq, h.framers⟩

/-- A step of the engines before the end of an event belongs to it. -/
theorem EngineStep.trans_eventEnd {s t u : State} (h : EngineStep s t) (k : EventEnd t u) : EventEnd s u :=
  ⟨k.profile.trans (congrArg Loader.profile h.loader), by rw [← h.mode]; exact k.mode, k.pending.trans h.pending,
    k.nextSeq.trans h.nextSeq, fun m => (k.framers m).trans (h.framers m)⟩

/-- A step of the engines after it belongs to it too. -/
theorem EventEnd.trans_engineStep {s t u : State} (h : EventEnd s t) (k : EngineStep t u) : EventEnd s u :=
  ⟨(congrArg Loader.profile k.loader).trans h.profile, by rw [k.mode]; exact h.mode, k.pending.trans h.pending,
    k.nextSeq.trans h.nextSeq, fun m => (k.framers m).trans (h.framers m)⟩

theorem releaseUnprotected_slotStep (n : Slot) (s : State) : SlotStep n s (releaseUnprotected n s) := by
  unfold releaseUnprotected
  split
  · have k := (enterService_slotStep n s).trans (modCard_slotStep n (fun c => { c with adoptPending := true }) _)
    refine SlotStep.trans (k.trans ?_) (checkSupply_slotStep n _)
    split
    · exact (modLink_linkStep n _ _).slotStep
    · exact (modLink_linkStep n _ _).slotStep
    · exact (handOver_linkStep n _ _ _).slotStep
  · exact SlotStep.refl n s

theorem releaseAll_engineStep : ∀ (l : List Slot) (s : State), EngineStep s (l.foldl (fun s n => releaseUnprotected n s) s)
  | [], s => EngineStep.refl s
  | n :: rest, s => (releaseUnprotected_slotStep n s).engineStep.trans (releaseAll_engineStep rest _)

/-- A wholesale freeing leaves each slot as it was but for its journal. -/
theorem journalWipe_slot (s : State) (m : Slot) : (journalWipe s).slot m = (s.slot m).unjournalled := by
  simp [journalWipe, State.slot]

theorem enterUnprotected_eventEnd (s : State) (h : s.mode = .normal) : EventEnd s (enterUnprotected s) := by
  unfold enterUnprotected
  refine EventEnd.trans_engineStep ?_ (releaseAll_engineStep allSlots _)
  refine ⟨rfl, .inr ⟨h, rfl⟩, rfl, rfl, fun m => ?_⟩
  show ((journalWipe { s with partFault := false, loader := { s.loader with mode := .unprotected } }).slot m).framer = _
  rw [journalWipe_slot]
  rfl

theorem answerPartFault_eventEnd (s : State) : EventEnd s (answerPartFault s) := by
  unfold answerPartFault
  split
  · split
    · exact enterUnprotected_eventEnd s ‹_›
    · exact ⟨rfl, .inl rfl, rfl, rfl, fun _ => rfl⟩
  · exact (EngineStep.refl s).eventEnd

theorem dispatchAll_engineStep (s : State) : EngineStep s (dispatchAll s) :=
  ⟨dispatchAll_loader s, dispatchAll_pending s, congrArg Wqm.nextSeq (dispatchAll_wqm s), dispatchAll_framer s⟩

/-- What the end of an event can do. -/
theorem finish_eventEnd (s : State) : EventEnd s (finish s) :=
  (settle_engineStep s).trans_eventEnd ((answerPartFault_eventEnd _).trans_engineStep (dispatchAll_engineStep _))

theorem checkQuarantinedHead_slotStep (n : Slot) (s : State) : SlotStep n s (checkQuarantinedHead n s) := by
  unfold checkQuarantinedHead
  split
  · split
    · exact takeEffectAtOnce_slotStep n s
    · exact SlotStep.refl n s
  · exact SlotStep.refl n s

/-- What the end of an event on a link can do. -/
theorem finishLink_eventEnd (n : Slot) (s : State) : EventEnd s (finishLink n s) :=
  (checkQuarantinedHead_slotStep n s).engineStep.trans_eventEnd (finish_eventEnd _)

end Sys2Proof.Machine
end

