-- ==== Sys2Proof/Laws/Pool.lean ====
section
/-!
SUPPORT. The books of the journal pool: with them in order, no operation of the journal finds a bookkeeping error, and each leaves
them in order (R1, R24).
-/

namespace Sys2Proof.Machine

/-! ## The pool entirely free (R8, R25) -/

theorem mem_entriesFrom (i : EntryId) : ∀ count first : Nat, first + count ≤ 4096 →
    (i ∈ entriesFrom count first ↔ first ≤ i.val ∧ i.val < first + count)
  | 0, first, _ => by simp [entriesFrom]
  | count + 1, first, h => by
    have k : i = Fin.ofNat 4096 first ↔ i.val = first := by
      rw [Fin.ext_iff, Fin.val_ofNat, Nat.mod_eq_of_lt (by omega)]
    rw [entriesFrom, List.mem_cons, k, mem_entriesFrom i count (first + 1) (by omega)]
    omega

theorem entriesFrom_nodup : ∀ count first : Nat, first + count ≤ 4096 → (entriesFrom count first).Nodup
  | 0, _, _ => List.nodup_nil
  | count + 1, first, h => by
    refine List.nodup_cons.mpr ⟨fun m => ?_, entriesFrom_nodup count (first + 1) (by omega)⟩
    have := ((mem_entriesFrom _ _ _ (by omega)).mp m).1
    rw [Fin.val_ofNat, Nat.mod_eq_of_lt (by omega)] at this
    omega

theorem entriesFrom_length : ∀ count first : Nat, (entriesFrom count first).length = count
  | 0, _ => rfl
  | count + 1, first => by rw [entriesFrom, List.length_cons, entriesFrom_length count]

theorem allFree_isFree (i : EntryId) : Pool.allFree.isFree i = true := by
  show (BitVec.allOnes 4096).getLsbD i.val = true
  rw [BitVec.getLsbD_allOnes]
  exact decide_eq_true i.isLt

theorem heldEntries_eq_nil (s : State) (h : ∀ n : Slot, (s.slot n).journal = []) : s.heldEntries = [] := by
  simp [State.heldEntries, h]

/-- A pool entirely free, with no journal holding an entry, has its books in order. -/
theorem poolWhole_of_allFree (s : State) (hp : s.pool = Pool.allFree) (hj : ∀ n : Slot, (s.slot n).journal = [])
    (hq : (allSlots.map (fun n => (s.slotEntry n).quota)).sum ≤ Config.journalPool) : PoolWhole s := by
  have hl := heldEntries_eq_nil s hj
  refine ⟨?_, fun i => ?_, ?_, ?_, hq⟩
  · rw [hp]; exact (entriesFrom_length _ _).symm
  · rw [hp]
    exact iff_of_true (allFree_isFree i) ((mem_entriesFrom i 4096 0 (Nat.le_refl _)).mpr ⟨by omega, by omega⟩)
  · rw [hl, hp, List.append_nil]
    exact entriesFrom_nodup 4096 0 (Nat.le_refl _)
  · rw [hl, hp]; rfl

/-! ## Free marks -/

theorem unmarked_isFree (p : Pool) (i j : EntryId) :
    (p.unmarked i).getLsbD j.val = true ↔ p.isFree j = true ∧ j ≠ i := by
  have hj := j.isLt
  have key : (1#4096 <<< i.val).getLsbD j.val = decide (j = i) := by
    rw [BitVec.getLsbD_shiftLeft, BitVec.getLsbD_one]
    simp only [hj, decide_true, Bool.true_and, Fin.ext_iff, Nat.zero_lt_succ]
    rcases Nat.lt_trichotomy j.val i.val with h | h | h
    · simp [h, show ¬ j.val = i.val by omega]
    · simp [h]
    · simp [show ¬ j.val < i.val by omega, show ¬ j.val = i.val by omega]; omega
  rw [Pool.unmarked, BitVec.getLsbD_and, BitVec.getLsbD_not, key, Pool.isFree]
  simp [hj]

theorem marked_isFree (p : Pool) (i j : EntryId) : (p.marked i).getLsbD j.val = true ↔ p.isFree j = true ∨ j = i := by
  have hj := j.isLt
  have key : (1#4096 <<< i.val).getLsbD j.val = decide (j = i) := by
    rw [BitVec.getLsbD_shiftLeft, BitVec.getLsbD_one]
    simp only [hj, decide_true, Bool.true_and, Fin.ext_iff, Nat.zero_lt_succ]
    rcases Nat.lt_trichotomy j.val i.val with h | h | h
    · simp [h, show ¬ j.val = i.val by omega]
    · simp [h]
    · simp [show ¬ j.val < i.val by omega, show ¬ j.val = i.val by omega]; omega
  rw [Pool.marked, BitVec.getLsbD_or, key, Pool.isFree]
  simp

/-! ## One slot's list among the sixteen -/

/-- The entries of slot `n`'s list. -/
def State.heldOf (s : State) (n : Slot) : List EntryId := (s.slot n).journal.map (fun h => h.id)

theorem allSlots_split (n : Slot) : ∃ xs ys : List Slot, allSlots = xs ++ n :: ys ∧ n ∉ xs ∧ n ∉ ys := by
  have hm : n ∈ allSlots := by revert n; decide
  obtain ⟨xs, ys, e⟩ := List.append_of_mem hm
  have hd : allSlots.Nodup := by decide
  rw [e, List.nodup_append] at hd
  exact ⟨xs, ys, e, fun h => hd.2.2 n h n (List.mem_cons_self ..) rfl, (List.nodup_cons.mp hd.2.1).1⟩

/-- Two states that agree in every list but slot `n`'s hold the same entries before and after that list. -/
theorem heldEntries_split (n : Slot) (s t : State) (h : ∀ m : Slot, m ≠ n → (t.slot m).journal = (s.slot m).journal) :
    ∃ xs ys, s.heldEntries = xs ++ (s.heldOf n ++ ys) ∧ t.heldEntries = xs ++ (t.heldOf n ++ ys) := by
  obtain ⟨a, b, e, ha, hb⟩ := allSlots_split n
  have agree : ∀ l : List Slot, n ∉ l → (l.map (fun m => (t.slot m).journal.map (fun h => h.id))) =
      l.map (fun m => (s.slot m).journal.map (fun h => h.id)) := fun l hl =>
    List.map_congr_left (fun m hm => by rw [h m (fun q => hl (q ▸ hm))])
  refine ⟨(a.map (fun m => (s.slot m).journal.map (fun h => h.id))).flatten,
    (b.map (fun m => (s.slot m).journal.map (fun h => h.id))).flatten, ?_, ?_⟩ <;>
  simp [State.heldEntries, State.heldOf, e, agree a ha, agree b hb]

/-- The books as a list of free entries and a list of held ones. -/
structure Books (free held : List EntryId) (isFree : EntryId → Bool) (count : Nat) : Prop where
  count_eq : count = free.length
  marks : ∀ i, isFree i = true ↔ i ∈ free
  nodup : (free ++ held).Nodup
  all : count + held.length = Config.journalPool

theorem PoolWhole.books {s : State} (h : PoolWhole s) : Books s.pool.freeList s.heldEntries s.pool.isFree s.pool.freeCount :=
  ⟨h.1, h.2.1, h.2.2.1, h.2.2.2.1⟩

theorem Books.whole {s : State} (h : Books s.pool.freeList s.heldEntries s.pool.isFree s.pool.freeCount)
    (q : (allSlots.map (fun n => (s.slotEntry n).quota)).sum ≤ Config.journalPool) : PoolWhole s :=
  ⟨h.count_eq, h.marks, h.nodup, h.all, q⟩

/-- A change that keeps the pool, the profile and which entries each list holds, in whatever order, keeps the books. -/
theorem PoolWhole.of_perm {n : Slot} {s t : State} (h : PoolWhole s) (hp : t.pool = s.pool)
    (hl : t.loader = s.loader) (ho : ∀ m : Slot, m ≠ n → (t.slot m).journal = (s.slot m).journal)
    (hn : (t.heldOf n).Perm (s.heldOf n)) : PoolWhole t := by
  obtain ⟨xs, ys, e, f⟩ := heldEntries_split n s t ho
  have hperm : t.heldEntries.Perm s.heldEntries := by
    rw [e, f]; exact (hn.append_right ys).append_left xs
  refine Books.whole ⟨hp ▸ h.1, fun i => hp ▸ h.2.1 i, ?_, ?_⟩ ?_
  · rw [hp]; exact (hperm.append_left _).nodup_iff.mpr h.2.2.1
  · rw [hp, hperm.length_eq]; exact h.2.2.2.1
  · have : ∀ m, t.slotEntry m = s.slotEntry m := fun m => by unfold State.slotEntry; rw [hl]
    simp only [this]; exact h.2.2.2.2

/-- An entry of a list is not free. -/
theorem PoolWhole.held_not_free {n : Slot} {s : State} (h : PoolWhole s) {x : Held} (hx : x ∈ (s.slot n).journal) :
    s.pool.isFree x.id = false := by
  obtain ⟨xs, ys, e, -⟩ := heldEntries_split n s s (fun _ _ => rfl)
  have hm : x.id ∈ s.heldEntries := by
    rw [e]; simp only [List.mem_append]; exact .inr (.inl (List.mem_map.mpr ⟨x, hx, rfl⟩))
  refine Bool.eq_false_iff.mpr (fun hf => ?_)
  exact (List.nodup_append.mp h.2.2.1).2.2 x.id ((h.2.1 _).mp hf) x.id hm rfl

/-- An entry stands once in a list. -/
theorem PoolWhole.heldOf_nodup {s : State} (h : PoolWhole s) (n : Slot) : (s.heldOf n).Nodup := by
  obtain ⟨xs, ys, e, -⟩ := heldEntries_split n s s (fun _ _ => rfl)
  have := (List.nodup_append.mp h.2.2.1).2.1
  rw [e] at this
  exact (List.nodup_append.mp (List.nodup_append.mp this).2.1).1

/-! ## Allocation and freeing -/

/-- With the books in order, an allocation that is made leaves them so. -/
theorem journalAlloc_poolWhole (n : Slot) (e : JEntry) {s : State} (h : PoolWhole s) : PoolWhole (journalAlloc n e s) := by
  obtain ⟨-, k⟩ | ⟨-, k⟩ | ⟨i, rest, -, hl, hc, -, k⟩ := journalAlloc_cases n e s
  · rw [k]; exact h
  · rw [k]; exact h
  obtain ⟨xs, ys, es, et⟩ := heldEntries_split n s (journalAlloc n e s) (fun m hm => by
    rw [k, modJournal_slot_ne n m _ _ hm]; rfl)
  have hn : (journalAlloc n e s).heldOf n = s.heldOf n ++ [i] := by
    rw [k]; simp only [State.heldOf, modJournal_journal_self, List.map_append, List.map_cons, List.map_nil]; rfl
  have hfl : (journalAlloc n e s).pool.freeList = rest := by rw [k]; rfl
  have hfc : (journalAlloc n e s).pool.freeCount = s.pool.freeCount - 1 := by rw [k]; rfl
  have hfm : (journalAlloc n e s).pool.freeMarks = s.pool.unmarked i := by rw [k]; rfl
  have hld : (journalAlloc n e s).loader = s.loader := by rw [k]; rfl
  have nd := h.2.2.1
  rw [hl, es] at nd
  refine Books.whole ⟨?_, fun j => ?_, ?_, ?_⟩ ?_
  · rw [hfl, hfc, h.1, hl]; rfl
  · rw [hfl, Pool.isFree, hfm, unmarked_isFree, h.2.1, hl]
    have : i ∉ rest := fun m => (List.nodup_cons.mp nd).1 (List.mem_append_left _ m)
    simp only [List.mem_cons]
    exact ⟨fun ⟨a, b⟩ => a.resolve_left b, fun a => ⟨.inr a, fun q => this (q ▸ a)⟩⟩
  · rw [hfl, et, hn]
    refine (List.Perm.nodup_iff ?_).mpr nd
    have : (xs ++ (s.heldOf n ++ [i] ++ ys)).Perm (i :: (xs ++ (s.heldOf n ++ ys))) := by
      rw [List.append_assoc, List.singleton_append, ← List.append_assoc, ← List.append_assoc]
      exact List.perm_middle
    exact (this.append_left rest).trans List.perm_middle
  · have := h.2.2.2.1
    rw [es] at this
    rw [hfc, et, hn]
    simp only [List.length_append, List.length_cons, List.length_nil] at this ⊢
    omega
  · have : ∀ m, (journalAlloc n e s).slotEntry m = s.slotEntry m := fun m => by unfold State.slotEntry; rw [hld]
    simp only [this]; exact h.2.2.2.2

/-- With the books in order, no report yet and an entry of the pool not held, an allocation is made. -/
theorem journalAlloc_partFault (n : Slot) (e : JEntry) {s : State} (h : PoolWhole s) (hf : s.partFault = false)
    (hroom : s.heldEntries.length < Config.journalPool) : (journalAlloc n e s).partFault = false := by
  have h4 := h.2.2.2.1
  have hc : s.pool.freeCount ≠ 0 := by omega
  have h1 := h.1
  unfold journalAlloc
  cases hl : s.pool.freeList with
  | nil => rw [hl] at h1; exact absurd h1 hc
  | cons i rest =>
    have hi : s.pool.isFree i = true := (h.2.1 i).mpr (hl ▸ List.mem_cons_self ..)
    simp only [hf, hc, hi, Bool.false_eq_true, if_false, or_self, Bool.true_eq_false]
    rfl

/-- With the books in order, freeing an entry of a list leaves them so. -/
theorem journalFreeOne_poolWhole (n : Slot) (x : Held) {s : State} (h : PoolWhole s) (hx : x.id ∈ s.heldOf n) :
    PoolWhole (journalFreeOne n x s) := by
  obtain ⟨-, k⟩ | ⟨-, k⟩ | ⟨-, -, -, k⟩ := journalFreeOne_cases n x s
  · rw [k]; exact h
  · rw [k]; exact h
  obtain ⟨xs, ys, es, et⟩ := heldEntries_split n s (journalFreeOne n x s) (fun m hm => by
    rw [k, modJournal_slot_ne n m _ _ hm]; rfl)
  have hn : (journalFreeOne n x s).heldOf n = (s.heldOf n).filter (fun i => i != x.id) := by
    rw [k]; simp only [State.heldOf, modJournal_journal_self, List.filter_map]; rfl
  have hfl : (journalFreeOne n x s).pool.freeList = s.pool.freeList ++ [x.id] := by rw [k]; rfl
  have hfc : (journalFreeOne n x s).pool.freeCount = s.pool.freeCount + 1 := by rw [k]; rfl
  have hfm : (journalFreeOne n x s).pool.freeMarks = s.pool.marked x.id := by rw [k]; rfl
  have hld : (journalFreeOne n x s).loader = s.loader := by rw [k]; rfl
  have hp : (s.heldOf n).Perm (x.id :: (s.heldOf n).filter (fun i => i != x.id)) := by
    rw [← (h.heldOf_nodup n).erase_eq_filter]
    exact List.perm_cons_erase hx
  have hperm : s.heldEntries.Perm (x.id :: (journalFreeOne n x s).heldEntries) := by
    rw [es, et, hn]
    exact ((hp.append_right ys).append_left xs).trans List.perm_middle
  refine Books.whole ⟨?_, fun j => ?_, ?_, ?_⟩ ?_
  · rw [hfl, hfc, h.1]; simp
  · rw [hfl, Pool.isFree, hfm, marked_isFree, h.2.1]; simp
  · rw [hfl, List.append_assoc]
    exact ((hperm.append_left s.pool.freeList).nodup_iff).mp h.2.2.1
  · have := h.2.2.2.1
    rw [hperm.length_eq, List.length_cons] at this
    rw [hfc]; omega
  · have : ∀ m, (journalFreeOne n x s).slotEntry m = s.slotEntry m := fun m => by unfold State.slotEntry; rw [hld]
    simp only [this]; exact h.2.2.2.2

/-- With the books in order and no report yet, an entry of a list is freed without one. -/
theorem journalFreeOne_partFault (n : Slot) {x : Held} {s : State} (h : PoolWhole s) (hf : s.partFault = false)
    (hx : x.id ∈ s.heldOf n) : (journalFreeOne n x s).partFault = false := by
  obtain ⟨y, hy, e⟩ := List.mem_map.mp hx
  have h2 : s.pool.isFree x.id = false := e ▸ h.held_not_free hy
  obtain ⟨xs, ys, es, -⟩ := heldEntries_split n s s (fun _ _ => rfl)
  have h4 := h.2.2.2.1
  have hpos : 0 < s.heldEntries.length := by
    rw [es]; exact List.length_pos_of_mem (List.mem_append_right _ (List.mem_append_left _ hx))
  have hc : s.pool.freeCount ≠ Config.journalPool := by omega
  unfold journalFreeOne
  simp only [hf, h2, hc, Bool.false_eq_true, if_false, or_self]
  rfl

/-- With the books in order, freeing some entries of a list, each once, leaves them so, without a report. -/
theorem journalFreeAll_poolWhole (n : Slot) : ∀ (l : List Held) {s : State}, PoolWhole s → s.partFault = false →
    (l.map (fun x => x.id)).Nodup → (∀ x ∈ l, x.id ∈ s.heldOf n) →
      PoolWhole (journalFreeAll n l s) ∧ (journalFreeAll n l s).partFault = false
  | [], _, h, hf, _, _ => ⟨h, hf⟩
  | x :: rest, s, h, hf, hd, hm => by
    have hx := hm x (List.mem_cons_self ..)
    refine journalFreeAll_poolWhole n rest (journalFreeOne_poolWhole n x h hx) (journalFreeOne_partFault n h hf hx)
      (List.nodup_cons.mp hd).2 (fun y hy => ?_)
    have hne : y.id ≠ x.id := fun q => (List.nodup_cons.mp hd).1 (List.mem_map.mpr ⟨y, hy, q⟩)
    have hy' := hm y (List.mem_cons_of_mem _ hy)
    obtain ⟨z, hz, ez⟩ := List.mem_map.mp hy'
    obtain ⟨-, k⟩ | ⟨-, k⟩ | ⟨-, -, -, k⟩ := journalFreeOne_cases n x s
    · rw [k]; exact hy'
    · rw [k]; exact hy'
    · rw [k]
      simp only [State.heldOf, modJournal_journal_self, List.mem_map, List.mem_filter]
      exact ⟨z, ⟨hz, by simpa [ez] using hne⟩, ez⟩

/-- With the books in order, a journal freed whole leaves them so, without a report. -/
theorem journalFree_poolWhole (n : Slot) {s : State} (h : PoolWhole s) (hf : s.partFault = false) :
    PoolWhole (journalFree n s) ∧ (journalFree n s).partFault = false := by
  obtain ⟨a, b⟩ := journalFreeAll_poolWhole n (s.slot n).journal h hf (h.heldOf_nodup n)
    (fun x hx => List.mem_map.mpr ⟨x, hx, rfl⟩)
  refine ⟨a.of_perm (n := n) rfl rfl (fun m _ => ?_) ?_, b⟩
  · simp [journalFree, modCard_slot_ne n m _ _ ‹_›]
  · simp [journalFree, State.heldOf]

end Sys2Proof.Machine
end

