-- ==== Sys2Proof/Tests/Slice0.lean ====
section
/-!
SUPPORT. The smoke test of WellFormed, small tests of the commands against numbers that the manual states, and for every obligation
with hypotheses a state and operands that meet them.
-/

namespace Sys2Proof.Tests

set_option Elab.async false

open Sys2Proof Sys2Proof.Machine

/-! ## The states the tests start from -/

/-- The kind table of section 2.6. -/
def lineKind : KindEntry :=
  { code := 0x21, admissionWeight := 10,
    ranges := [{ first := 16, last := 1023, cls := .keep, weight := 1, truncate := none },
               { first := 1024, last := 1279, cls := .sequence, weight := 2, truncate := some 1024 },
               { first := 2048, last := 4095, cls := .live, weight := 0, truncate := none }] }

def trunkKind : KindEntry :=
  { code := 0x40, admissionWeight := 30,
    ranges := [{ first := 4, last := 511, cls := .keep, weight := 2, truncate := none },
               { first := 512, last := 767, cls := .sequence, weight := 3, truncate := some 512 },
               { first := 768, last := 799, cls := .barred, weight := 0, truncate := none }] }

/-- The parameters of section 10.7, and slots of priority class 1 with a quota of 6 (section 1.12) and queues of 2. -/
def testProfile : Profile :=
  { params := { criterion := 3, mimicChecking := true, holdOff := 50, absenceLimit := 10000, readyLimit := 500, baseRate := 40,
                cap := 800, quietInterval := 500 },
    slots := Vector.replicate 16 { priority := 1, queueLimit := 2, quota := 6, likeReplacement := true },
    kinds := [lineKind, trunkKind] }

/-- A part in NORMAL mode with that profile and every slot EMPTY. -/
def up : State :=
  { State.reset with loader := { State.reset.loader with mode := .normal, rstAsserted := false, profile := testProfile } }

/-- The same part in UNPROTECTED mode. -/
def bare : State := { up with loader := { up.loader with mode := .unprotected } }

def goodBits : StatusBits := { fresh := some false, ready := some true, pgood := some true, busy := some false }

def lineId : Identity := { kind := 0x21, revision := 1, serial := 3391 }

def trunkId : Identity := { kind := 0x40, revision := 1, serial := 1207 }

/-- A line card in service on an aligned link. -/
def served : SlotState :=
  { SlotState.reset with
    framer := { Framer.reset with state := .aligned 17 16, lastPosition := some 17, bits := goodBits }
    card := { Card.reset with state := .inService, bound := some lineId, stability := .running 0 } }

/-- Line card 5 in service, the other slots EMPTY. -/
def inService : State := modSlot 5 (fun _ => served) up

/-- That card in another state. -/
def cardIn (st : CardState) : State := modCard 5 (fun c => { c with state := st }) inService

/-- A word of slot 5's window. -/
def at5 (w : Nat) : BusAddr := BitVec.ofNat 20 (5 * 65536 + 4 * w)

/-- A framer that has lost alignment between two receive frames. -/
def outOfFrame (fr : Framer) : Framer := fr.lose .lossOfSignal false

/-- A queue entry of slot 5. -/
def entry (seq : Seq) (w : WordNo) (kind : WriteKind) : QEntry :=
  { seq := seq, word := w, value := 0x11, kind := kind, cls := some .keep, tag := none }

/-- The state with one entry in slot 5's queue. -/
def withEntry (q : QEntry) (s : State) : State :=
  { modQueue 5 (fun l => l ++ [q]) s with wqm := { s.wqm with free := s.wqm.free - 1, nextSeq := q.seq + 1, lowMark := q.seq } }

/-- Card 5 in service with two writes queued, as many as its queue takes. -/
def fullQueue : State := withEntry (entry 101 21 .plain) (withEntry (entry 100 20 .ordered) inService)

/-- An outstanding transaction of slot 5's link. -/
def withTxn (t : Txn) (s : State) : State := modLink 5 (fun l => { l with outstanding := some t }) s

def writeTxn : Txn := Txn.start { kind := .write, flag := false, tag := 41, word := 20, value := 0x11 } .queueHead

/-- A journal of two entries in a pool of which two entries more are free. -/
def stocked : State :=
  { modJournal 5 (fun _ => [{ id := 1, entry := JEntry.fresh 5 20 0x0100 0 .keep },
                            { id := 2, entry := JEntry.fresh 5 1025 0x000A 1 .sequence }]) inService with
    pool := { freeCount := 2, freeList := [7, 9], freeMarks := 0x280#4096, keepMap := [{ slot := 5, word := 20, id := 1 }] } }

/-- The same with the KEEP entry's check bit damaged. -/
def damaged : State :=
  modJournal 5 (fun l => l.map (fun h => if h.id = 1 then { h with entry := { h.entry with check := !h.entry.check } } else h)) stocked

/-- The command answers a next state that passes a test. -/
def yields (c : Instr) (s : State) (p : State → Bool) : Bool :=
  match exec c s with
  | .next t => p t
  | .fault _ => false
  | .refused _ => false

/-! ## WellFormed: an ill-formed command for each check -/

theorem test_shortBody_refused : (Instr.loadComplete (List.replicate 78 0)).wellFormed = false := by decide +kernel
theorem test_longBody_refused : (Instr.loadComplete (List.replicate 1024 0)).wellFormed = false := by decide +kernel
theorem test_unalignedRead_refused : (Instr.controllerRead 0x50051#20).wellFormed = false := by decide
theorem test_readOfWordOne_refused : (Instr.controllerRead (at5 1)).wellFormed = false := by decide
theorem test_writeToWordZero_refused : (Instr.controllerWrite (at5 0) 1).wellFormed = false := by decide
theorem test_orderedWriteToWordThree_refused : (Instr.orderedWrite (at5 3) 1).wellFormed = false := by decide
theorem test_lockedReadOfWordOne_refused : (Instr.lockedRead (at5 1)).wellFormed = false := by decide
theorem test_lockedWriteToWordOne_refused : (Instr.lockedWrite (at5 1) 1).wellFormed = false := by decide
theorem test_headerFaultOfStoreWord_refused : (Instr.headerWordFault .write (at5 20) 1).wellFormed = false := by decide
theorem test_wordFormAsNotWordForm_refused : (Instr.notWordFormAccess (some .read) (at5 20) 0).wellFormed = false := by decide
theorem test_commandCodeAsInvalid_refused : (Instr.controlWordInvalidWrite .write 5 4).wellFormed = false := by decide
theorem test_wellFormed_accepted :
    (Instr.controllerRead (at5 20)).wellFormed = true ∧ (Instr.controlWordInvalidWrite .write 5 5).wellFormed = true ∧
      (Instr.loadComplete (List.replicate 79 0)).wellFormed = true := by decide

/-! ## Operand forms -/

/-- No row of the table has bits, so no word spells a command. -/
theorem test_noWordDecodes : decodeTableWord 8 1 = none := rfl

/-- Slot 5, word 20 stand at byte address 5 × 65536 + 4 × 20 (00_scope). -/
theorem test_addressFields : slotOf 0x50050#20 = 5 ∧ wordOf 0x50050#20 = 20 ∧ isAligned 0x50050#20 = true := by decide

/-- The identity word holds the kind in its top byte, then the revision, then the serial (section 2.8). -/
theorem test_identityWord : lineId.toWord = 0x21010D3F#32 ∧ Identity.ofWord 0x21010D3F#32 = lineId := by decide

/-- A WRITE of value 3 to word 20 under tag 41: kind 1, flag 0, tag, word, value, most significant first (section 2.8). -/
theorem test_requestPayload :
    Request.payload { kind := .write, flag := false, tag := 41, word := 20, value := 3 } =
      0b01#2 ++ 0#1 ++ 0b00101001#8 ++ 0b00000000010100#14 ++ 3#32 := by decide

/-- An ACK of tag 3, read at position 0 from the payload bits 001 00000011 of a frame. -/
theorem test_responseOfFrame :
    Resp.ofFrame 0 0xC08#64 = some { kind := .ack, tag := 3, cause := 0, value := 0 } := by decide +kernel

/-- The words of section 2.6 on a line card: 20 is KEEP with range index 0, 1500 and 3000 are LIVE. -/
theorem test_classes :
    inService.classOf 5 20 = .keep ∧ inService.classOf 5 1500 = .live ∧ inService.classOf 5 3000 = .live ∧
      (inService.rangeOf 5 1025).map (fun x => x.1) = some 1 := by decide +kernel

/-- Number 65535 is earlier than number 2, and not the other way round (R45). -/
theorem test_earlierWraps : earlier 65535 2 = true ∧ earlier 2 65535 = false := by decide

/-- Costs of section 10.7: 30 × 16 = 480, 2 × 16 = 32; a weight of 51 or more is held to the cap of 800. -/
theorem test_costs : up.costOf 30 = 480 ∧ up.costOf 2 = 32 ∧ up.costOf 51 = 800 := by decide

/-! ## Commands -/

/-- The smallest image: no kind entry; slot entries adding to 16 × (1 + 32 + 0 + 1) = 544; with the parameters' 128 and the header's
231 the bytes add to 903 = 0x0387, the sum field. -/
def smallHeader : Vector Byte 6 := #v[0x32, 0x60, 0x00, 0x55, 0x03, 0x87]

def smallBody : List Byte :=
  [3, 0, 0, 50, 0x10, 0x10, 1, 0, 0, 40, 1, 0, 1, 0] ++ (List.replicate 16 [1, 32, 0, 1]).flatten ++ [0]

/-- The Loader with the read begun, and with that header read. -/
def loading : State := { State.reset with loader := { State.reset.loader with rstAsserted := false, scs := true } }

def headerRead : State :=
  { loading with loader := { loading.loader with bytes := smallHeader.toList, sum := 0x32 + 0x60 + 0x55 } }

theorem test_rstAsserted : yields .rstAsserted damaged (fun t => t.mode == .loading && (t.slot 5).journal == []) = true := by
  decide +kernel

theorem test_rstDeasserted :
    yields .rstDeasserted State.reset (fun t => t.loader.scs && t.loader.sent == [0x03, 0, 0, 0]) = true := by decide +kernel

theorem test_profileHeaderRead :
    yields (.profileHeaderRead smallHeader) loading (fun t => t.mode == .loading && t.loader.sum == 0xE7) = true := by decide +kernel

theorem test_badFormatCode :
    yields (.profileHeaderRead #v[0x32, 0x61, 0x00, 0x55, 0, 0]) loading (fun t => t.mode == .unprotected && !t.loader.scs) = true := by
  decide +kernel

theorem test_loadComplete :
    yields (.loadComplete smallBody) headerRead (fun t =>
      t.mode == .normal && t.params.baseRate == 40 && t.params.cap == 256 && (t.slotEntry 5).quota == 1) = true := by decide +kernel

theorem test_badSum :
    yields (.loadComplete (smallBody.map (fun b => b + 1))) headerRead (fun t => t.mode == .unprotected) = true := by decide +kernel

/-- The kind table of section 2.6 as the image's bytes, after that body's 78 before it: 133 = 0x85 bytes in all, adding to 0x0B71. -/
def kindsImage : List Byte :=
  [0x32, 0x60, 0x00, 0x85, 0x0B, 0x71] ++ smallBody.dropLast ++
    [2, 0x21, 10, 3, 0, 16, 3, 0xFF, 0x01, 0, 0, 4, 0, 4, 0xFF, 0x42, 4, 0, 8, 0, 0x0F, 0xFF, 0x80, 0, 0,
     0x40, 30, 3, 0, 4, 1, 0xFF, 0x02, 0, 0, 2, 0, 2, 0xFF, 0x43, 2, 0, 3, 0, 3, 0x1F, 0xC0, 0, 0]

theorem test_kindTable : (profileOf kindsImage 0x0B71).map (fun p => p.kinds) = some [lineKind, trunkKind] := by decide +kernel

/-- The overhead of a multiframe at position 9, frame 15 first: the alignment word 11010010 in the even frames from frame 0 on, and in
frames 1, 3, 5 and 7 FRESH 0, READY 1, PGOOD 1 and BUSY 0 (R84, section 2.8). -/
def overhead9 : List RxFrame :=
  [0, 0, 0, 0x200, 0, 0, 0, 0, 0, 0x200, 0x200, 0, 0x200, 0x200, 0, 0x200]

/-- A card's framer in SEARCH, one frame short of its second alignment word at position 9. -/
def searchingIn (st : CardState) : State :=
  modFramer 5 (fun fr => { fr with state := .search, lastPosition := some 9, bits := StatusBits.invalid,
                                   frames := (overhead9 ++ overhead9).tail, sightings := [{ position := 9, age := 15 }] })
    (cardIn st)

/-- Card 5 so in LOSS_HOLD. -/
def searching : State := searchingIn .lossHold

theorem test_acquisition :
    yields (.receiveFrameEnd 5 0#64) searching (fun t =>
      (t.slot 5).framer.state == .aligned 9 0 && (t.slot 5).framer.bits == goodBits && (t.slot 5).card.state == .inService) = true ∧
    yields (.receiveFrameEnd 5 0#64) (modFramer 5 (fun fr => { fr with lastPosition := some 8 }) searching) (fun t =>
      (t.slot 5).card.state == .identify) = true ∧
    yields (.receiveFrameEnd 5 0#64) (searchingIn .empty) (fun t =>
      (t.slot 5).card.state == .empty && (t.slot 5).link.outstanding.any (fun x => x.req.word == 0)) = true ∧
    yields (.receiveFrameEnd 5 0#64) (searchingIn .down) (fun t => (t.slot 5).card.state == .identify) = true := by
  decide +kernel

/-- A sighting at another position in the two multiframes refuses the acquisition and raises the mimic indication (section 5.6). -/
theorem test_mimic :
    yields (.receiveFrameEnd 5 0#64)
      (modFramer 5 (fun fr => { fr with sightings := [{ position := 12, age := 7 }, { position := 9, age := 15 }] }) searching)
      (fun t => (t.slot 5).framer.state == .search && (t.slot 5).framer.mimic) = true := by decide +kernel

/-- Three errored multiframes of four with K = 3 (section 5.7): out of frame, and a card in service goes to LOSS_HOLD. -/
theorem test_outOfFrame :
    yields (.multiframeJudged 5) (modFramer 5 (fun fr => { fr with history := [false, true, true, false] }) inService) (fun t =>
      (t.slot 5).framer.state == .aligned 17 0 && (t.slot 5).framer.history == [true, true, false, true]) = false ∧
    yields (.multiframeJudged 5) (modFramer 5 (fun fr => { fr with history := [false, true, true] }) inService) (fun t =>
      (t.slot 5).framer.state == .search && (t.slot 5).card.state == .lossHold) = true := by decide +kernel

/-- The frame in progress at the loss is no part of the search (R92); the loss is declared once. -/
theorem test_lossOfSignal :
    yields (.lossOfSignal 5) inService (fun t =>
      !t.aligned 5 && (t.slot 5).card.holdOff == .running 0 && (t.slot 5).framer.lossCause == some .lossOfSignal &&
        yields (.receiveFrameEnd 5 1#64) t (fun u => (u.slot 5).framer.frames == [] &&
          yields (.receiveFrameEnd 5 2#64) u (fun v => (v.slot 5).framer.frames == [2#64]))) = true := by decide +kernel

theorem test_transmitMultiframeStart :
    yields (.transmitMultiframeStart 5) (withTxn writeTxn inService) (fun t =>
      (t.slot 5).link.sending == some writeTxn.req && t.transmittedBit 5 0 1 == false && t.transmittedBit 5 0 2) = true := by
  decide +kernel

/-- R109: a resend due when the ACK is taken is made in the next multiframe, before the request that the ACK let go. -/
theorem test_lateResend :
    let s := takeResponse 5 { kind := .ack, tag := 41, cause := 0, value := 0 } (withTxn writeTxn fullQueue)
    yields (.transmitMultiframeStart 5) (dispatch 5 s) (fun t =>
      (t.slot 5).link.sending == some writeTxn.req && (t.slot 5).link.outstanding.any (fun x => x.sendDue) &&
        yields (.transmitMultiframeStart 5) t (fun u => (u.slot 5).link.sending.any (fun r => r.tag == 0 && r.word == 21))) = true := by
  decide +kernel

/-- The fourth send's timeout fails the transaction (section 6.7): DOWN at attempt level 1. -/
theorem test_responseTimeout :
    yields (.responseTimeout 5) (withTxn { writeTxn with sends := 3, sendDue := false, response := .running 9 } fullQueue) (fun t =>
      (t.slot 5).link.outstanding.any (fun x => x.sends == 4 && x.req.tag == 41)) = true ∧
    yields (.responseTimeout 5) (withTxn { writeTxn with sends := 4, sendDue := false, response := .running 9 } fullQueue) (fun t =>
      (t.slot 5).card.state == .down && (t.slot 5).card.attempt == 1 && t.queueDepth 5 == 2) = true := by decide +kernel

/-- R118: a failed ADOPT ends an EMPTY slot's attempt. R58: a CLEAR that fails in flight to a QUARANTINED card empties the slot, not
retired on an aligned link. R124: a failure in LOSS_HOLD changes no state. -/
theorem test_failedTransaction :
    let x := { writeTxn with sends := 4, sendDue := false, response := .running 9 }
    yields (.responseTimeout 5) (withTxn { x with source := .relink { what := .adopt, forced := false } }
      (modCard 5 (fun c => { c with candidate := some trunkId }) (cardIn .empty))) (fun t =>
        (t.slot 5).card.state == .empty && (t.slot 5).card.candidate.isNone && !t.relinkBusy 5) = true ∧
    yields (.responseTimeout 5) (withTxn x (withEntry (entry 100 1 (.control .clear)) (cardIn .quarantined))) (fun t =>
      (t.slot 5).card.state == .empty && !(t.slot 5).card.retired && t.queueDepth 5 == 0 && t.relinkBusy 5) = true ∧
    yields (.responseTimeout 5) (withTxn x (cardIn .lossHold)) (fun t => (t.slot 5).card.state == .lossHold) = true := by
  decide +kernel

theorem test_waitTimerExpiry :
    yields (.waitTimerExpiry 5) (withTxn { writeTxn with sends := 0, wait := .running 3277 } inService) (fun t =>
      (t.slot 5).link.outstanding.any (fun x => x.sends == 1 && x.sendDue)) = true := by decide +kernel

theorem test_commitLimitExpiry :
    yields (.commitLimitExpiry 5) (withTxn { writeTxn with commit := .running 7 } inService) (fun t =>
      (t.slot 5).card.state == .down && (t.slot 5).link.pendingRelink.isNone) = true := by decide +kernel

theorem test_readyLimitExpiry :
    yields (.readyLimitExpiry 5) (modCard 5 (fun c => { c with ready := .running 7, attempt := 2 }) (cardIn .identify)) (fun t =>
      (t.slot 5).card.state == .quarantined && (t.slot 5).card.reason == some .unresponsive) = true := by decide +kernel

theorem test_holdOffExpiry :
    yields (.holdOffExpiry 5)
      (modCard 5 (fun c => { c with holdOff := .running 7 }) (modFramer 5 outOfFrame (cardIn .lossHold))) (fun t =>
      (t.slot 5).card.state == .down && (t.slot 5).card.absence == .running 0) = true := by decide +kernel

theorem test_absenceLimitExpiry :
    yields (.absenceLimitExpiry 5) (modCard 5 (fun c => { c with absence := .running 7 }) (cardIn .down)) (fun t =>
      (t.slot 5).card.state == .quarantined && (t.slot 5).card.reason == some .absent && t.attn) = true := by decide +kernel

theorem test_stabilityWindowExpiry :
    yields (.stabilityWindowExpiry 5) (modCard 5 (fun c => { c with attempt := 2 }) inService) (fun t =>
      (t.slot 5).card.attempt == 0 && (t.slot 5).card.stability == .stopped) = true := by decide +kernel

/-- Section 4.9: with a write of word 20 queued, a read of that KEEP word is answered with it, a SEQUENCE word RETRY. -/
theorem test_controllerRead :
    yields (.controllerRead (at5 20)) fullQueue (fun t => t.port.response == some (.ready (some 0x11))) = true ∧
      yields (.controllerRead (at5 1100)) fullQueue (fun t => t.port.response == some .retry) = true := by decide +kernel

/-- Section 3.10: an accepted write takes the next sequence number and is dispatched on an idle link. -/
theorem test_controllerWrite :
    yields (.controllerWrite (at5 20) 7) { inService with wqm := { inService.wqm with nextSeq := 100, lowMark := 100 } } (fun t =>
      (t.slot 5).queue == [{ seq := 100, word := 20, value := 7, kind := .plain, cls := some .keep, tag := some 0 }] &&
        t.wqm.nextSeq == 101 && (t.slot 5).link.tagCounter == 1) = true := by decide +kernel

/-- Section 3.10: an ordered write whose number is not the low mark is held. -/
theorem test_orderedWrite :
    yields (.orderedWrite (at5 40) 7) { inService with wqm := { inService.wqm with nextSeq := 102, lowMark := 100 } } (fun t =>
      (t.slot 5).queue.map (fun q => q.tag) == [none] && (t.slot 5).link.outstanding.isNone) = true := by decide +kernel

theorem test_lockedRead :
    yields (.lockedRead (at5 50)) inService (fun t =>
      t.port.current.isSome && (t.slot 5).link.outstanding.any (fun x => x.req.flag && x.req.kind == .read)) = true ∧
      yields (.lockedRead (at5 0)) inService (fun t => t.port.response == some .fault) = true := by decide +kernel

/-- Section 4.9: the monitor's access has abandoned the lock, so the LOCKED WRITE is answered FAULT; with the lock open it matches. -/
theorem test_lockedWrite :
    yields (.lockedWrite (at5 50) 0x11) inService (fun t => t.port.response == some .fault) = true ∧
      yields (.lockedWrite (at5 50) 0x11) { inService with port := { inService.port with lock := some { slot := 5, word := 50 } } }
        (fun t => t.port.response == some (.ready none) && t.port.lock == none &&
          (t.slot 5).queue.map (fun q => q.kind) == [.locked] && (t.slot 5).link.outstanding.any (fun x => x.req.flag)) = true := by
  decide +kernel

/-- State 1 in bits 31 to 28, REFUSED in bit 20, the journal count 2 from bit 7 (section 2.8); the flag is then cleared. -/
theorem test_readBridgeStatus :
    yields (.readBridgeStatus 5) (modCard 5 (fun c => { c with refused := true }) stocked) (fun t =>
      t.port.response == some (.ready (some 0x10100100)) && !(t.slot 5).card.refused) = true := by decide +kernel

theorem test_headerWordFault :
    yields (.headerWordFault .write (at5 3) 1) inService (fun t => t.port.response == some .fault) = true := by decide +kernel

theorem test_notWordFormAccess :
    yields (.notWordFormAccess none (at5 20) 1) inService (fun t => t.port.response == some .fault && t.queueDepth 5 == 0) = true := by
  decide +kernel

theorem test_clear :
    yields (.clear .write 5) inService (fun t => (t.slot 5).queue.map (fun q => q.kind) == [.control .clear]) = true ∧
      yields (.clear .write 5) (modFramer 5 outOfFrame (cardIn .quarantined)) (fun t =>
        (t.slot 5).card.state == .empty && (t.slot 5).card.retired && t.wqm.nextSeq == 1) = true := by decide +kernel

/-- R58, R72: a CLEAR that would take its effects at once is answered RETRY while the pool is empty, and has none. -/
theorem test_clear_noRoom :
    yields (.clear .write 5) { modFramer 5 outOfFrame (cardIn .quarantined) with wqm := { up.wqm with free := 0 } } (fun t =>
      t.port.response == some .retry && (t.slot 5).card.state == .quarantined && t.wqm.nextSeq == 0) = true := by decide +kernel

theorem test_restart :
    yields (.restart .ordered 5) (cardIn .quarantined) (fun t => t.port.response == some .fault) = true ∧
      yields (.restart .ordered 5) inService (fun t => (t.slot 5).link.outstanding.any (fun x => x.req.word == 1 && x.req.value == 2)) = true := by
  decide +kernel

theorem test_retire :
    yields (.retire .locked 5) inService (fun t => (t.slot 5).queue.map (fun q => q.value) == [3]) = true := by decide +kernel

theorem test_rebase :
    yields (.rebase .write 5) inService (fun t => (t.slot 5).queue.map (fun q => q.value) == [4]) = true ∧
      yields (.rebase .write 4) inService (fun t => t.port.response == some .fault) = true := by decide +kernel

theorem test_controlWordInvalidWrite :
    yields (.controlWordInvalidWrite .write 5 5) inService (fun t => t.port.response == some .fault && t.queueDepth 5 == 0) = true := by
  decide +kernel

/-- Section 10.7: at backoff level 1 a base rate of 40 accrues 20 at each tick, from 460 to the 480 of the admission. -/
theorem test_pacerTick :
    yields .pacerTick { up with pacer := { up.pacer with credit := 460, backoff := 1 } } (fun t => t.pacer.credit == 480) = true ∧
      yields .pacerTick { up with pacer := { up.pacer with pwarn := true } } (fun t => t.pacer.credit == 0) = true := by decide +kernel

theorem test_pwarnAsserted :
    yields .pwarnAsserted { up with pacer := { up.pacer with credit := 460, backoff := 3 } } (fun t =>
      t.pacer.credit == 0 && t.pacer.backoff == 3 && t.pacer.pwarn) = true := by decide +kernel

theorem test_pwarnDeasserted :
    yields .pwarnDeasserted { up with pacer := { up.pacer with pwarn := true } } (fun t => t.pacer.quiet == .running 0) = true := by
  decide +kernel

theorem test_quietIntervalExpiry :
    yields .quietIntervalExpiry { up with pacer := { up.pacer with backoff := 2, quiet := .running 9 } } (fun t =>
      t.pacer.backoff == 1 && t.pacer.quiet == .running 0) = true := by decide +kernel

/-! ## Outcomes of transactions -/

/-- Section 1.12: the ACK of a second write to word 20 moves its entry to the tail with the new value. -/
theorem test_keepRewrite :
    ((recordKeep 5 20 0x0101 0 stocked).slot 5).journal.map (fun h => (h.entry.word, h.entry.value)) =
      [(1025, 0x000A), (20, 0x0101)] := by decide +kernel

/-- The truncate word 1024 frees the entries of its range and is kept itself. -/
theorem test_truncation :
    ((recordSequence 5 1024 0x000D 1 { first := 1024, last := 1279, cls := .sequence, weight := 2, truncate := some 1024 } stocked).slot
      5).journal.map (fun h => (h.entry.word, h.entry.value)) = [(20, 0x0100), (1024, 0x000D)] := by decide +kernel

/-- Section 7.12: a like replacement with FRESH 1 is bound and goes to ADMIT_WAIT. -/
theorem test_likeReplacement :
    ((compareIdentity 5 { lineId with serial := 4410 } true (cardIn .identify)).slot 5).card.state = .admitWait ∧
      ((compareIdentity 5 { lineId with serial := 4410 } true (cardIn .identify)).slot 5).card.bound.map (fun i => i.serial)
        = some 4410 := by decide +kernel

/-- Section 11.7: an allocation that finds its entry not marked free brings the part to UNPROTECTED. -/
theorem test_partFault :
    (finish (journalAlloc 5 (JEntry.fresh 5 21 1 0 .keep) { stocked with pool := { stocked.pool with freeMarks := 0 } })).mode =
      .unprotected := by decide +kernel

/-- Card 4 has come to stand ahead of card 3, whose admission claim of 800 stood; card 5's record claim of 16 ranks below card 4's
claim to come, of 160. -/
def rivals : State :=
  let fresh : SlotState := { served with card := { served.card with state := .admitWait, stability := .stopped } }
  { modCard 5 (fun c => { c with state := .replaying, stability := .stopped })
      (modSlot 4 (fun _ => fresh) (modSlot 3 (fun _ => fresh) stocked)) with
    rpe := { channels := #v[none, some { slot := 5, stamp := 3, step := .claimed { word := 20, value := 0x0100, range := 0, cost := 16 },
                                         suspendRequested := false }, none, none],
             list := [{ slot := 4, priority := 1, stamp := 4, wait := .fresh }, { slot := 3, priority := 1, stamp := 5, wait := .fresh }],
             order := [5], arrival := 6 }
    pacer := { credit := 100, backoff := 0, quiet := .stopped, pwarn := false,
               claims := [{ slot := 3, priority := 1, cost := 800, kind := .admission },
                          { slot := 5, priority := 1, cost := 16, kind := .record }] } }

/-- R165: granting is considered at the withdrawal of the best-ranked claim, before the new head's claim is placed. -/
theorem test_grantAtWithdrawal :
    (settle rivals).pacer.credit = 84 ∧
      (settle rivals).pacer.claims = [{ slot := 4, priority := 1, cost := 160, kind := .admission }] ∧
      ((settle rivals).slot 5).link.pendingRelink = some { what := .record 20 0x0100, forced := false } := by decide +kernel

/-- What is left of that: card 4's claim of 160 stands at a credit of 150. A tick of 40 grants it, and 30 is left. -/
def patient : State := { settle rivals with pacer := { (settle rivals).pacer with credit := 150 } }

theorem test_tickGrants :
    yields .pacerTick patient (fun t => (t.slot 4).card.state == .replaying && t.pacer.credit == 30) = true := by decide +kernel

/-- R104: the UNLOCK asked for as a card leaves service with an UNLOCK outstanding is owed, the outstanding one being abandoned. -/
theorem test_unlockOwedOnQuarantine :
    ((quarantine 5 .unstable (withTxn (Txn.start { kind := .unlock, flag := false, tag := 41, word := 0, value := 0 } .unlock)
      { inService with port := { inService.port with lock := some { slot := 5, word := 50 } } })).slot 5).link.unlockOwed = true := by
  decide +kernel

/-! ## Witnesses: the obligations' hypotheses can be met, each clause by a state of its own -/

/-- Replay under way: card 5 SENT on channel 1 and card 6 SUSPENDED, card 7 in ADMIT_WAIT behind it, a waiting read of card 8. -/
def shelf : State :=
  let others := modSlot 8 (fun _ => served)
    (modSlot 7 (fun _ => { served with card := { served.card with state := .admitWait, stability := .stopped } })
      (modSlot 6 (fun _ => { served with card := { served.card with state := .suspended, stability := .stopped } }) stocked))
  { modCard 5 (fun c => { c with state := .replaying, stability := .stopped, replayStarted := true, nakCount := 8, attempt := 3 })
      (modLink 5 (fun l => { l with outstanding := some { writeTxn with sends := 4 }, tagCounter := 41, lastWriteTag := some 40 }) others) with
    port := { current := some { slot := 8, word := 20, locked := false }, lock := none, response := none }
    rpe := { channels := #v[none, some { slot := 5, stamp := 3, step := .sent { word := 20, value := 0x0100, range := 0, cost := 16 },
                                         suspendRequested := true }, none, none],
             list := [{ slot := 6, priority := 1, stamp := 4, wait := .resume }, { slot := 7, priority := 1, stamp := 5, wait := .fresh }],
             order := [5], arrival := 6 }
    pacer := { credit := 800, backoff := 3, quiet := .running 5, pwarn := false,
               claims := [{ slot := 7, priority := 1, cost := 800, kind := .admission }] } }

/-- The same with a command waiting. -/
def next (c : Instr) (s : State) : State := { s with pending := [c] }

theorem witness_stepRunsFrontCommand : (next .pacerTick shelf).pending = .pacerTick :: [] := rfl

/-- An outstanding transaction, a timer stopped, and one running at its limit of 50 × 16384 periods. -/
theorem witness_idleStep :
    shelf.pending = [] ∧ (shelf.slot 5).link.outstanding = some { writeTxn with sends := 4 } ∧
      (shelf.slot 5).card.holdOff = .stopped ∧
      ((modCard 5 (fun c => { c with holdOff := .running 819200 }) shelf).slot 5).card.holdOff = .running 819200 ∧
      shelf.params.holdOff * 16384 = 819200 ∧ shelf.pacer.quiet = .running 5 := by decide +kernel

theorem witness_pacerInBounds : PacerInBounds (next (.clear .write 5) shelf) := by
  unfold PacerInBounds Params.InRange SlotEntry.InRange; decide +kernel

theorem witness_countersInBounds : CountersInBounds (next (.clear .write 5) shelf) := by
  unfold CountersInBounds SlotState.CountersInBounds; decide +kernel

theorem witness_replayConsistent : ReplayConsistent (next (.clear .write 5) shelf) := by
  unfold ReplayConsistent ChannelsConsistent ListConsistent OrderConsistent; decide +kernel

theorem witness_keepingAligned :
    KeepingAligned (next (.clear .write 5) shelf) ∧ (shelf.slot 5).card.state.inKeeping = true := by
  unfold KeepingAligned; decide +kernel

theorem witness_journalInBounds :
    JournalInBounds (next (.clear .write 5) shelf) ∧
      JournalInBounds (next (.clear .write 5) bare) := by
  refine ⟨?_, ?_, fun _ => ⟨rfl, ?_⟩⟩
  · unfold JournalInBounds; decide +kernel
  · decide +kernel
  · decide +kernel

/-- A whole pool of which card 5's journal holds one entry. -/
def oneHeld : State := journalAlloc 5 (JEntry.fresh 5 20 0x0100 0 .keep) inService

theorem inService_poolWhole : PoolWhole inService :=
  poolWhole_of_allFree inService rfl (by decide +kernel) (by decide +kernel)

theorem next_poolWhole (c : Instr) {s : State} (h : PoolWhole s) : PoolWhole (next c s) := h

theorem witness_poolWhole :
    PoolWhole (next (.clear .write 5) oneHeld) ∧ JournalInBounds (next (.clear .write 5) oneHeld) ∧
      oneHeld.mode = .normal ∧ (oneHeld.slot 5).journal.length = 1 := by
  refine ⟨next_poolWhole _ (journalAlloc_poolWhole 5 _ inService_poolWhole), ?_, ?_, ?_⟩
  · unfold JournalInBounds; decide +kernel
  · decide +kernel
  · decide +kernel

theorem witness_queuesInBounds : QueuesInBounds (next (.clear .write 5) fullQueue) := by
  unfold QueuesInBounds; decide +kernel

theorem witness_portInService : PortInService (next (.clear .write 5) shelf) := by unfold PortInService; decide +kernel

theorem witness_idleOutsideNormal : bare.mode ≠ .normal ∧ IdleOutsideNormal (next (.clear .write 5) bare) := by
  unfold IdleOutsideNormal ReplayIdle; decide +kernel

theorem witness_tagsApart : TagsApart (next (.clear .write 5) shelf) := by unfold TagsApart; decide +kernel

/-- The invariants' second hypothesis: the step answers a next state. -/
theorem witness_invariants_step :
    (∃ t, step (next (.clear .write 5) shelf) = .next t) ∧ (∃ t, step (next (.clear .write 5) fullQueue) = .next t) ∧
      ∃ t, step (next (.clear .write 5) bare) = .next t := ⟨⟨_, rfl⟩, ⟨_, rfl⟩, ⟨_, rfl⟩⟩

theorem witness_partMode :
    (∃ t, exec .rstAsserted shelf = .next t) ∧
      (bare.mode = .unprotected ∧ ∃ t, exec .rstDeasserted bare = .next t) ∧
      (up.mode = .normal ∧ ∃ t, exec .rstDeasserted up = .next t) ∧
      (loading.mode = .loading ∧
        yields (.profileHeaderRead #v[0x32, 0x61, 0x00, 0x55, 0, 0]) loading (fun t => t.mode != .loading) = true) :=
  ⟨⟨_, rfl⟩, ⟨rfl, ⟨_, rfl⟩⟩, ⟨rfl, ⟨_, rfl⟩⟩, by decide +kernel⟩

theorem witness_loadBegins :
    State.reset.loader.rstAsserted = true ∧ loading.mode = .loading ∧ loading.loader.scs = true ∧ loading.loader.bytes = [] :=
  ⟨rfl, rfl, rfl, rfl⟩

/-- The least and the greatest length are good, one less and one more are not. -/
theorem witness_headerLengths :
    headerGood [0x32, 0x60, 0x00, 0x55, 0, 0] = true ∧ headerGood [0x32, 0x60, 0x04, 0x05, 0, 0] = true ∧
      headerGood [0x32, 0x60, 0x00, 0x54, 0, 0] = false ∧ headerGood [0x32, 0x60, 0x04, 0x06, 0, 0] = false := by decide

theorem witness_loadComplete :
    headerRead.mode = .loading ∧ headerRead.loader.scs = true ∧ headerRead.loader.bytes.length = 6 ∧
      imageHalf headerRead.loader.bytes 2 - 6 ≤ smallBody.length ∧ smallBody.length = 79 ∧
      headerRead.loader.sum + byteSum smallBody = 256 * 0x03 + 0x87 ∧
      (headerRead.loader.sum + byteSum (smallBody.map (fun b => b + 1))) % 65536 ≠ 256 * 0x03 + 0x87 ∧
      (headerRead.loader.bytes ++ smallBody.take 79).length = pairOf (headerRead.loader.bytes ++ smallBody.take 79) 2 := by
  decide +kernel

/-- Both images are good; the second is not with another sum, nor the first with its kind count of 0 raised to 17. -/
theorem witness_goodImage :
    GoodImage (smallHeader.toList ++ smallBody) 903 ∧ GoodImage kindsImage 0x0B71 ∧ ¬ GoodImage kindsImage 0x0B72 ∧
      ¬ GoodImage (smallHeader.toList ++ smallBody.dropLast ++ [17]) 903 := by
  refine ⟨⟨?_, ?_, ?_, ?_, ?_, ?_, ?_, ?_⟩, ⟨?_, ?_, ?_, ?_, ?_, ?_, ?_, ?_⟩,
    fun h => absurd h.2.2.1 (by decide +kernel), fun h => absurd h.2.2.2.1 (by decide +kernel)⟩ <;>
    (try unfold GoodRange) <;> decide +kernel

theorem witness_acceptedProfile :
    (∃ p, profileOf (smallHeader.toList ++ smallBody) 903 = some p) ∧ (∃ p, profileOf kindsImage 0x0B71 = some p) ∧
      kindsImage.length = pairOf kindsImage 2 ∧ kindOffset kindsImage 2 = 133 :=
  ⟨Option.isSome_iff_exists.mp (by decide +kernel), Option.isSome_iff_exists.mp (by decide +kernel), by decide +kernel,
    by decide +kernel⟩

theorem witness_classFollows :
    bare.mode = .unprotected ∧ (up.slot 4).card.bound = none ∧ up.boundKind 4 = none ∧
      inService.boundKind 5 = some lineKind ∧ (∀ x ∈ lineKind.ranges, x.covers 1500 = false) ∧ inService.mode ≠ .unprotected ∧
      lineKind.ranges.length ≤ 8 ∧ rangesApart lineKind.ranges = true ∧
      { first := 1024, last := 1279, cls := .sequence, weight := 2, truncate := some 1024 } ∈ lineKind.ranges ∧
      WordRange.covers { first := 1024, last := 1279, cls := .sequence, weight := 2, truncate := some 1024 } 1279 = true := by
  decide +kernel

theorem witness_pool :
    stocked.partFault = false ∧ stocked.pool.freeList = 7 :: [9] ∧ 0 < stocked.pool.freeCount ∧ stocked.pool.isFree 7 = true ∧
      stocked.pool.isFree 1 = false ∧ stocked.pool.freeCount < 4096 ∧
      { id := 1, entry := JEntry.fresh 5 20 0x0100 0 .keep } ∈ (stocked.slot 5).journal ∧
      up.pool.freeCount = 4096 ∧ ({ stocked with pool := { stocked.pool with freeList := [], freeCount := 0 } }).pool.freeList = [] := by
  decide +kernel

theorem witness_partFault :
    ({ shelf with partFault := true }).mode = .normal ∧ (shelf.slot 5).card.state.inKeeping = true ∧
      (shelf.slot 8).card.state.inKeeping = false := by decide +kernel

theorem stocked_freeMarks : ∀ i ∈ stocked.pool.freeList, stocked.pool.isFree i = true := by
  intro i h
  have e : i = 7 ∨ i = 9 := by simpa [stocked] using h
  obtain rfl | rfl := e <;> decide +kernel

theorem witness_bookkeeping : BookkeepingGood 5 stocked := by
  unfold BookkeepingGood
  exact ⟨rfl, rfl, by decide, stocked_freeMarks, by decide +kernel, by decide +kernel, by show 4 ≤ 4096; decide⟩

theorem witness_bookkeeping_damaged : BookkeepingGood 5 damaged := by
  unfold BookkeepingGood
  exact ⟨rfl, rfl, by decide, stocked_freeMarks, by decide +kernel, by decide +kernel, by show 4 ≤ 4096; decide⟩

/-- The same journal in a slot whose quota its two entries use up. -/
def filled : State :=
  { stocked with loader := { stocked.loader with profile := { testProfile with
      slots := Vector.replicate 16 { priority := 1, queueLimit := 2, quota := 2, likeReplacement := true } } } }

/-- The same journal with its second entry STALE. -/
def halfReplayed : State := modJournal 5 (fun l => l.map (fun h => if h.id = 2 then h.stale else h)) stocked

theorem witness_bookkeeping_filled : BookkeepingGood 5 filled ∧ BookkeepingGood 5 halfReplayed := by
  unfold BookkeepingGood
  exact ⟨⟨rfl, rfl, by decide, stocked_freeMarks, by decide +kernel, by decide +kernel, by show 4 ≤ 4096; decide⟩,
    ⟨rfl, rfl, by decide, stocked_freeMarks, by decide +kernel, by decide +kernel, by show 4 ≤ 4096; decide⟩⟩

/-- With `witness_bookkeeping`: the KEEP entry found, found with a parity error, and not found with room for one more. -/
theorem witness_keepWrite :
    stocked.mode = .normal ∧ (stocked.slot 5).card.incomplete = false ∧
      (stocked.keepEntry 5 20).any (fun h => !h.entry.parityError) = true ∧
      (damaged.keepEntry 5 20).any (fun h => h.entry.parityError) = true ∧ stocked.keepEntry 5 21 = none ∧
      stocked.journalCount 5 < (stocked.slotEntry 5).quota ∧ 0 < stocked.pool.freeCount := by decide +kernel

/-- With `witness_bookkeeping_filled`: not found at the quota. -/
theorem witness_keepWrite_quota :
    filled.mode = .normal ∧ (filled.slot 5).card.incomplete = false ∧ filled.keepEntry 5 21 = none ∧
      filled.journalCount 5 = (filled.slotEntry 5).quota := by decide +kernel

/-- With `witness_bookkeeping`: what a truncation of range 1 keeps is below the quota. -/
theorem witness_truncation :
    0 < stocked.pool.freeCount ∧
      ((stocked.slot 5).journal.filter (fun h => h.entry.range != 1)).length < (stocked.slotEntry 5).quota := by decide +kernel

/-- With `witness_bookkeeping_filled`: at the quota, a word that is no truncate word, and a truncation that removes nothing. -/
theorem witness_truncation_quota :
    filled.mode = .normal ∧ (filled.slot 5).card.incomplete = false ∧
      (filled.slot 5).journal.length = (filled.slotEntry 5).quota ∧
      (filled.slot 5).journal.filter (fun h => h.entry.range != 2) = (filled.slot 5).journal := by decide +kernel

/-- R15: it makes the journal INCOMPLETE and frees it. -/
theorem test_sequenceAtQuota :
    let t := recordSequence 5 1026 7 1 { first := 1024, last := 1279, cls := .sequence, weight := 2, truncate := some 1024 } filled
    (t.slot 5).journal = [] ∧ (t.slot 5).card.incomplete = true ∧ t.pool.freeCount = 4 := by decide +kernel

/-- A list with one CONFIRMED entry before its first STALE one. -/
theorem witness_replayWalk :
    (halfReplayed.slot 5).journal =
        [{ id := 1, entry := JEntry.fresh 5 20 0x0100 0 .keep }] ++
          { id := 2, entry := (JEntry.fresh 5 1025 0x000A 1 .sequence).flip } :: [] ∧
      (JEntry.fresh 5 20 0x0100 0 .keep).state = .confirmed ∧ (JEntry.fresh 5 1025 0x000A 1 .sequence).flip.state = .stale := by
  decide +kernel

/-- Heads on both sides of the wrap, 65279 before 254. -/
def wrapped : State :=
  { modQueue 6 (fun _ => [entry 254 20 .plain]) (modQueue 5 (fun _ => [entry 65279 20 .plain]) inService) with
    wqm := { free := 510, nextSeq := 255, lowMark := 65279 } }

/-- Both within the 512 numbers before the next one, the earlier at the far end of them. -/
theorem witness_lowMark :
    (∀ n : Slot, (up.slot n).queue.head? = none) ∧ (wrapped.slot 5).queue.head? ≠ none ∧
      (∀ n : Slot, ∀ q ∈ (wrapped.slot n).queue.head?, (q.seq - 65279#16).toNat ≤ 511) ∧
      NumbersRecent (next (.clear .write 5) wrapped) ∧ (255#16 - 65279#16).toNat = 512 ∧
      ((wrapped.slot 5).queue.head?.any (fun q => q.seq == wrapped.wqm.lowMark)) = true := by
  unfold NumbersRecent; decide +kernel

theorem witness_lowMarkRight :
    LowMarkRight (next (.clear .write 5) wrapped) ∧ ∃ t, step (next (.clear .write 5) wrapped) = .next t :=
  ⟨⟨fun h => absurd (h 5) (by decide +kernel), fun _ => ⟨⟨5, entry 65279 20 .plain, by decide +kernel, by decide +kernel⟩,
    by decide +kernel⟩⟩, _, rfl⟩

/-- With nothing left to start, a CLEAR for the idle card 5, which its dispatcher then sends. -/
theorem witness_nothingToStart :
    NothingToStart stocked ∧ yields (.clear .write 5) stocked (fun t => (t.slot 5).link.outstanding.isSome) = true := by
  unfold NothingToStart; decide +kernel

theorem witness_noPartFault : ∃ t, exec (.clear .write 5) stocked = .next t := ⟨_, rfl⟩

theorem witness_dispatcher :
    inService.aligned 5 = true ∧ (inService.slot 5).link.outstanding = none ∧ inService.readyIsOne 5 = true ∧
      inService.busyIsZero 5 = true ∧ (inService.slot 5).link.unlockOwed = false ∧
      (inService.slot 5).link.pendingRelink = none ∧ (inService.slot 5).link.pendingRead = none ∧
      ((askUnlock 5 inService).slot 5).link.unlockOwed = true ∧
      ((handOver 5 .adopt false inService).slot 5).link.pendingRelink = some { what := .adopt, forced := false } ∧
      ((modLink 5 (fun l => { l with pendingRead := some { word := 20, lockFlag := true } }) inService).slot 5).link.pendingRead =
        some { word := 20, lockFlag := true } ∧
      ((withEntry (entry 100 20 .ordered) inService).slot 5).queue = entry 100 20 .ordered :: [] ∧
      (inService.slot 5).queue = [] ∧ (inService.slot 5).card.state = .inService := by decide +kernel

/-- A link out of frame, one with a transaction outstanding, and one whose READY is not 1 with a relink request that is forced, one
that is not, and none. -/
theorem witness_dispatcher_held :
    let s := modFramer 5 (fun fr => { fr with bits := { goodBits with ready := none } }) inService
    (modFramer 5 outOfFrame inService).aligned 5 = false ∧ ((withTxn writeTxn inService).slot 5).link.outstanding ≠ none ∧
      s.aligned 5 = true ∧ (s.slot 5).link.outstanding = none ∧ s.readyIsOne 5 = false ∧
      ((handOver 5 .restart true s).slot 5).link.pendingRelink = some { what := .restart, forced := true } ∧
      ((handOver 5 .adopt false s).slot 5).link.pendingRelink = some { what := .adopt, forced := false } ∧
      (s.slot 5).link.pendingRelink = none := by decide +kernel

/-- The head that goes: of a card in service, of a QUARANTINED one; and one that is held, out of service. -/
theorem witness_dispatcher_head :
    let s := withEntry (entry 100 20 .ordered) inService
    let c := withEntry { entry 100 1 (.control .clear) with value := 1 } (cardIn .quarantined)
    s.lockNames 5 = false ∧ (s.slot 5).card.adoptPending = false ∧ (entry 100 20 .ordered).tag = none ∧
      (entry 100 20 .ordered).seq = s.wqm.lowMark ∧ (c.slot 5).card.state = .quarantined ∧ c.lockNames 5 = false ∧
      ((withEntry (entry 100 20 .plain) (cardIn .down)).slot 5).card.state = .down := by decide +kernel

/-- An open port, with a lock open, and one in LOADING. -/
def locked : State := { inService with port := { inService.port with lock := some { slot := 5, word := 50 } } }

theorem witness_loadingRetry :
    (Instr.clear .write 5).isAccess = true ∧ loading.mode = .loading ∧ loading.port.current = none ∧
      shelf.port.current = some { slot := 8, word := 20, locked := false } := by decide +kernel

theorem witness_portOpen : PortOpen inService ∧ PortOpen locked ∧ locked.port.lock = some { slot := 5, word := 50 } := by
  unfold PortOpen; decide +kernel

theorem witness_notWordForm : isAligned 0x50051#20 = false ∧ PortOpen locked ∧ inService.port.lock = none := by
  unfold PortOpen; decide +kernel

/-- A trunk card's BARRED words, the first and the last. -/
theorem witness_barred :
    let s := modCard 5 (fun c => { c with bound := some trunkId }) inService
    isAligned (at5 768) = true ∧ PortOpen s ∧ 4 ≤ (wordOf (at5 768)).toNat ∧ s.classOf (slotOf (at5 768)) (wordOf (at5 768)) = .barred ∧
      s.classOf (slotOf (at5 799)) (wordOf (at5 799)) = .barred ∧
      s.port.lock ≠ some { slot := slotOf (at5 768), word := wordOf (at5 768) } ∧ bare.mode = .unprotected := by
  unfold PortOpen; decide +kernel

theorem witness_shutSlot :
    isAligned (at5 4) = true ∧ wordOf (at5 2) = 2 ∧ 4 ≤ (wordOf (at5 4)).toNat ∧ PortOpen up ∧ PortOpen (cardIn .quarantined) ∧
      (up.slot (slotOf (at5 4))).card.state = .empty ∧ ((cardIn .quarantined).slot (slotOf (at5 4))).card.state = .quarantined ∧
      up.port.lock ≠ some { slot := slotOf (at5 4), word := wordOf (at5 4) } := by
  unfold PortOpen; decide +kernel

theorem witness_readPassesThrough :
    StoreAddress (at5 2) inService ∧ StoreAddress (at5 4) inService ∧ StoreAddress (at5 16383) inService ∧ PortOpen inService ∧
      (inService.slot (slotOf (at5 4))).card.state = .inService ∧ inService.queueDepth (slotOf (at5 4)) = 0 := by
  unfold StoreAddress PortOpen; decide +kernel

theorem witness_readAnswered :
    StoreAddress (at5 20) fullQueue ∧ PortOpen fullQueue ∧ (fullQueue.slot (slotOf (at5 20))).card.state.shut = false ∧
      0 < fullQueue.queueDepth (slotOf (at5 20)) ∧ classAt (at5 1100) fullQueue = .sequence ∧ classAt (at5 2) fullQueue = .live ∧
      classAt (at5 20) fullQueue = .keep ∧ fullQueue.newestQueued (slotOf (at5 20)) (wordOf (at5 20)) = some 0x11 ∧
      classAt (at5 22) fullQueue = .keep ∧ fullQueue.newestQueued (slotOf (at5 22)) (wordOf (at5 22)) = none ∧
      (fullQueue.slot (slotOf (at5 22))).card.state = .inService := by
  unfold StoreAddress PortOpen; decide +kernel

theorem witness_readShadow :
    let s := modCard 5 (fun c => { c with state := .lossHold }) stocked
    StoreAddress (at5 20) s ∧ PortOpen s ∧ (s.slot (slotOf (at5 20))).card.state ≠ .inService ∧
      (s.slot (slotOf (at5 20))).card.state.shut = false ∧ (s.slot (slotOf (at5 20))).card.incomplete = false ∧
      classAt (at5 20) s = .keep ∧ s.newestQueued (slotOf (at5 20)) (wordOf (at5 20)) = none ∧
      (s.keepEntry (slotOf (at5 20)) (wordOf (at5 20))).any (fun h => !h.entry.parityError) = true ∧
      classAt (at5 21) s = .keep ∧ s.keepEntry (slotOf (at5 21)) (wordOf (at5 21)) = none := by
  unfold StoreAddress PortOpen; decide +kernel

theorem witness_shadowParityError :
    let s := modCard 5 (fun c => { c with state := .lossHold }) damaged
    StoreAddress (at5 20) s ∧ PortOpen s ∧ (s.slot (slotOf (at5 20))).card.state.shut = false ∧
      (s.slot (slotOf (at5 20))).card.state ≠ .inService ∧ (s.slot (slotOf (at5 20))).card.incomplete = false ∧
      classAt (at5 20) s = .keep ∧ s.newestQueued (slotOf (at5 20)) (wordOf (at5 20)) = none ∧
      (s.keepEntry (slotOf (at5 20)) (wordOf (at5 20))).any (fun h => h.entry.parityError) = true := by
  unfold StoreAddress PortOpen; decide +kernel

/-- Room at a depth one below the limit of 2, and none at the limit or with an empty pool. -/
theorem witness_room :
    Roomy 5 (withEntry (entry 100 20 .plain) inService) ∧ ¬ Roomy 5 fullQueue ∧
      ¬ Roomy 5 { inService with wqm := { inService.wqm with free := 0 } } := by
  unfold Roomy; decide +kernel

theorem witness_writeJoins :
    StoreAddress (at5 20) inService ∧ StoreAddress (at5 2) fullQueue ∧ PortOpen inService ∧ PortOpen fullQueue ∧
      (inService.slot (slotOf (at5 20))).card.state.shut = false ∧ Roomy (slotOf (at5 20)) inService ∧
      ¬ Roomy (slotOf (at5 2)) fullQueue := by
  unfold StoreAddress PortOpen Roomy; decide +kernel

theorem witness_lockedRead :
    isAligned (at5 3) = true ∧ (wordOf (at5 3)).toNat < 4 ∧ 4 ≤ (wordOf (at5 4)).toNat ∧ PortOpen inService ∧ PortOpen fullQueue ∧
      inService.classOf (slotOf (at5 4)) (wordOf (at5 4)) ≠ .barred ∧ (inService.slot (slotOf (at5 4))).card.state.shut = false ∧
      (inService.slot (slotOf (at5 4))).card.state = .inService ∧ inService.queueDepth (slotOf (at5 4)) = 0 ∧
      fullQueue.queueDepth (slotOf (at5 4)) ≠ 0 := by
  unfold PortOpen; decide +kernel

theorem witness_lockedWrite :
    StoreAddress (at5 50) locked ∧ PortOpen locked ∧ (locked.slot (slotOf (at5 50))).card.state.shut = false ∧
      locked.port.lock = some { slot := slotOf (at5 50), word := wordOf (at5 50) } ∧ Roomy (slotOf (at5 50)) locked ∧
      ¬ Roomy (slotOf (at5 50)) { locked with wqm := { locked.wqm with free := 0 } } ∧
      (locked.slot (slotOf (at5 50))).link.unlockOwed = false ∧
      locked.port.lock ≠ some { slot := slotOf (at5 51), word := wordOf (at5 51) } := by
  unfold StoreAddress PortOpen Roomy; decide +kernel

theorem witness_statusWord :
    PortOpen inService ∧ inService.lockNames 5 = false ∧ PortOpen locked ∧ locked.lockNames 5 = true := by
  unfold PortOpen; decide +kernel

/-- R80, R104: a status read of the locked card abandons the lock, and the UNLOCK is sent; with READY not 1 it is owed. -/
theorem test_statusReadUnlocks :
    yields (.readBridgeStatus 5) locked (fun t =>
      t.port.lock.isNone && (t.slot 5).link.outstanding.any (fun x => x.source == .unlock)) = true ∧
    yields (.readBridgeStatus 5) (modFramer 5 (fun fr => { fr with bits := { goodBits with ready := none } }) locked) (fun t =>
      (t.slot 5).link.unlockOwed && (t.slot 5).link.outstanding.isNone) = true := by decide +kernel

theorem witness_controlCommand :
    PortOpen inService ∧ (inService.slot 5).card.state.shut = false ∧ Roomy 5 inService ∧ ¬ Roomy 5 fullQueue ∧ PortOpen fullQueue ∧
      (inService.slot 4).card.state = .empty ∧ ((cardIn .quarantined).slot 5).card.state = .quarantined ∧
      PortOpen (cardIn .quarantined) := by
  unfold PortOpen Roomy; decide +kernel

/-- A QUARANTINED card on an aligned link that is READY, one whose READY is not 1, and one out of frame, with and without room. -/
theorem witness_commandEndsQuarantine :
    let a := cardIn .quarantined
    let b := modFramer 5 (fun fr => { fr with bits := { goodBits with ready := some false } }) a
    PortOpen a ∧ ReplayConsistent a ∧ JournalInBounds a ∧ (a.slot 5).card.state = .quarantined ∧ a.aligned 5 = true ∧
      a.readyIsOne 5 = true ∧ Roomy 5 a ∧ ¬ Roomy 5 { a with wqm := { a.wqm with free := 0 } } ∧
      b.aligned 5 = true ∧ b.readyIsOne 5 = false ∧ Roomy 5 b ∧ ¬ Roomy 5 { b with wqm := { b.wqm with free := 0 } } ∧
      (modFramer 5 outOfFrame a).aligned 5 = false := by
  unfold PortOpen ReplayConsistent ChannelsConsistent ListConsistent OrderConsistent JournalInBounds Roomy; decide +kernel

theorem witness_headerWords :
    (Instr.headerWordFault .write (at5 0) 1).wellFormed = true ∧ (Instr.headerWordFault .lockedWrite (at5 3) 1).wellFormed = true ∧
      (Instr.headerWordFault .read (at5 1) 0).wellFormed = true ∧ ((0 : Word32) ≠ 1 ∧ (5 : Word32) ≠ 4) ∧ isAligned (at5 0) = true ∧
      wordOf (at5 0) = 0 := by decide

theorem witness_notItsLockedWrite (addr : BusAddr) (v : Word32) :
    (Instr.controllerRead (at5 20) = .lockedWrite addr v → slotOf addr ≠ 5 ∨ wordOf addr ≠ 50) ∧
      (Instr.lockedWrite (at5 51) 7 = .lockedWrite addr v → slotOf addr ≠ 5 ∨ wordOf addr ≠ 50) := by
  constructor
  · intro h; cases h
  · intro h; cases h; decide

theorem witness_abandonedLock :
    (Instr.controllerRead (at5 20)).isAccess = true ∧ (Instr.controllerRead (at5 20)).wellFormed = true ∧
      (Instr.lockedWrite (at5 51) 7).isAccess = true ∧ (Instr.lockedWrite (at5 51) 7).wellFormed = true ∧
      locked.port.lock = some { slot := 5, word := 50 } ∧ PortOpen locked ∧ ReplayConsistent locked ∧ PortInService locked := by
  unfold PortOpen ReplayConsistent ChannelsConsistent ListConsistent OrderConsistent PortInService; decide +kernel

/-- A read of card 5 that waits with the bus held. -/
def reading (lockFlag : Bool) : State :=
  { withTxn (Txn.start { kind := .read, flag := lockFlag, tag := 41, word := 20, value := 0 } .read) inService with
    port := { inService.port with current := some { slot := 5, word := 20, locked := lockFlag } } }

theorem witness_waitingRead :
    let x := Txn.start { kind := .read, flag := true, tag := 41, word := 20, value := 0 } .read
    ((reading true).slot 5).link.outstanding = some x ∧ x.active = true ∧ x.req.kind = .read ∧ x.source = .read ∧
      RespKind.fits .data x.req.kind = true ∧ (reading true).port.current = some { slot := 5, word := 20, locked := true } ∧
      (reading true).port.current.any (fun r => r.slot == 5) = true ∧ ReplayConsistent (reading true) ∧
      ((reading true).slot 5).card.state = .inService := by
  unfold ReplayConsistent ChannelsConsistent ListConsistent OrderConsistent; decide +kernel

theorem witness_transmit :
    up.mode ≠ .loading ∧ ((withTxn writeTxn inService).slot 5).link.outstanding = some writeTxn ∧ writeTxn.active = true ∧
      writeTxn.sendDue = true ∧ (inService.slot 5).link.outstanding.any (fun y => y.active && y.sendDue) = false ∧
      (inService.slot 5).link.lateSends = [] ∧ loading.mode = .loading ∧
      ((modLink 5 (fun l => { l with lateSends := [writeTxn.req] }) inService).slot 5).link.lateSends = writeTxn.req :: [] := by
  decide +kernel

theorem witness_timeouts :
    let x := { writeTxn with sends := 3, response := .running 1, wait := .running 2 }
    ((withTxn x inService).slot 5).link.outstanding = some x ∧ x.active = true ∧ x.response.isRunning = true ∧ x.sends < 4 ∧
      x.wait.isRunning = true := by decide +kernel

/-- At attempt level 1, the last that leads to DOWN, and at 2. -/
theorem witness_failedTransaction :
    let x := { writeTxn with sends := 4, response := .running 1, commit := .running 2 }
    ((withTxn x inService).slot 5).link.outstanding = some x ∧ x.active = true ∧
      ((withTxn x inService).slot 5).card.state = .inService ∧ x.response.isRunning = true ∧ 4 ≤ x.sends ∧ x.commit.isRunning = true ∧
      ((modCard 5 (fun c => { c with attempt := 1 }) (withTxn x inService)).slot 5).card.attempt < 2 ∧
      ¬ ((modCard 5 (fun c => { c with attempt := 2 }) (withTxn x inService)).slot 5).card.attempt < 2 := by decide +kernel

/-- The failed transaction in every other state: a relink request's in EMPTY, a command's and another's in QUARANTINED, any in
LOSS_HOLD, DOWN, IDENTIFY and REPLAYING. -/
theorem witness_failedTransaction_states :
    let x := { writeTxn with sends := 4, response := .running 1, commit := .running 2 }
    let relink := { x with source := .relink { what := .adopt, forced := false } }
    (∀ st ∈ [CardState.empty, .quarantined, .lossHold, .down, .identify],
        ReplayConsistent (withTxn relink (cardIn st)) ∧ ((withTxn relink (cardIn st)).slot 5).card.state = st ∧
          ((withTxn relink (cardIn st)).slot 5).queue = []) ∧
      relink.source ≠ .queueHead ∧ relink.source ≠ .read ∧ relink.source ≠ .unlock ∧ x.source = .queueHead ∧
      ((withTxn relink (cardIn .empty)).slot 5).link.pendingRelink = none ∧
      (withTxn x (cardIn .quarantined)).aligned 5 = true ∧ (withTxn x (cardIn .quarantined)).readyIsOne 5 = true ∧
      ((withTxn x shelf).slot 5).card.state.inKeeping = true := by
  unfold ReplayConsistent ChannelsConsistent ListConsistent OrderConsistent; decide +kernel

/-- The least and the last phase of an aligned framer that still counts, and a search without an acquisition. -/
theorem witness_receivedFrame :
    let s := modFramer 5 (fun fr => { fr with state := .aligned 17 15 }) inService
    let t := modFramer 5 (fun fr => { fr with state := .aligned 17 0 }) inService
    loading.mode = .loading ∧ s.mode ≠ .loading ∧ (s.slot 5).framer.state = .aligned 17 15 ∧ (t.slot 5).framer.state = .aligned 17 0 ∧
      (up.slot 5).framer.state = .search ∧ (up.slot 5).framer.partFrame = false ∧
      (((up.slot 5).framer.receive 0).sight).acquires up.params.mimicChecking = none ∧
      ((modFramer 5 (fun fr => fr.lose .lossOfSignal true) inService).slot 5).framer.state = .search ∧
      ((modFramer 5 (fun fr => fr.lose .lossOfSignal true) inService).slot 5).framer.partFrame = true := by decide +kernel

/-- Sightings of every age a frame leaves: new, one frame old, and 32 frames old, after which they are dropped. -/
theorem witness_sightings :
    let old := modFramer 5 (fun fr => { fr with sightings :=
      [{ position := 3, age := 0 }, { position := 4, age := 31 }, { position := 5, age := 32 }] }) searching
    (((old.slot 5).framer.receive 0).sight).sightings =
        [{ position := 3, age := 1 }, { position := 4, age := 32 }, { position := 9, age := 0 }] ∧
      WordHeard ((old.slot 5).framer.receive 0).frames 9 := by
  unfold WordHeard; decide +kernel

theorem witness_acquisition :
    searching.mode ≠ .loading ∧ (searching.slot 5).framer.state = .search ∧ (searching.slot 5).framer.partFrame = false ∧
      (((searching.slot 5).framer.receive 0).sight).acquires searching.params.mimicChecking = some 9 := by decide +kernel

/-- A card in LOSS_HOLD whose link acquires at its last position with FRESH 0 and PGOOD 1, a suspended write outstanding. -/
theorem witness_acquisition_return :
    let s := withTxn writeTxn.suspend searching
    let fr := ((s.slot 5).framer.receive 0).sight
    (s.slot 5).card.state = .lossHold ∧ (s.slot 5).framer.lastPosition = some 9 ∧
      fr.acquires s.params.mimicChecking = some 9 ∧ (fr.align 9).bits.fresh = some false ∧
      (fr.align 9).bits.pgood = some true ∧ (s.slot 5).link.setAside = none ∧
      (s.slot 5).link.outstanding = some writeTxn.suspend ∧ writeTxn.suspend.source = .queueHead ∧
      (s.slot 5).card.identityOwed = false ∧
      ((modCard 5 (fun c => { c with identityOwed := true }) s).slot 5).card.identityOwed = true := by decide +kernel

/-- Acquisitions in the other states: EMPTY, DOWN and QUARANTINED with READY 1, and with READY 0 in the second multiframe; LOSS_HOLD
at another position, and with PGOOD 0. -/
theorem witness_acquisition_states :
    let absent := modCard 5 (fun c => { c with reason := some .absent }) (searchingIn .quarantined)
    let unready (s : State) := modFramer 5 (fun fr => { fr with frames := fr.frames.set 11 0 }) s
    let dim := modFramer 5 (fun fr => { fr with frames := (overhead9.set 10 0 ++ overhead9.set 10 0).tail }) searching
    let moved := modFramer 5 (fun fr => { fr with lastPosition := some 8 }) searching
    (∀ s ∈ [searchingIn .empty, searchingIn .down, absent, searchingIn .quarantined, unready (searchingIn .empty),
            unready (searchingIn .down), unready absent, dim, moved],
        s.mode ≠ .loading ∧ (s.slot 5).framer.state = .search ∧ (s.slot 5).framer.partFrame = false ∧
          (((s.slot 5).framer.receive 0).sight).acquires s.params.mimicChecking = some 9 ∧
          (s.slot 5).card.candidate = none ∧ s.relinkBusy 5 = false ∧ (s.slot 5).card.restartWait = false) ∧
      (absent.slot 5).card.reason = some .absent ∧ ((searchingIn .quarantined).slot 5).card.reason = none ∧
      ((((searching.slot 5).framer.receive 0).sight).align 9).bits = goodBits ∧
      (((((unready (searchingIn .down)).slot 5).framer.receive 0).sight).align 9).bits.ready ≠ some true ∧
      ((((dim.slot 5).framer.receive 0).sight).align 9).bits = { goodBits with pgood := some false } ∧
      (moved.slot 5).framer.lastPosition ≠ some 9 ∧ ¬ HeldBack .down goodBits ∧
      HeldBack .down { goodBits with ready := none } ∧ ReadyTimed .down ∧ ¬ ReadyTimed .lossHold := by
  unfold HeldBack ReadyTimed; decide +kernel

/-- Two positions that acquire at once: the lower one acquires, mimic checking off. -/
theorem witness_acquisition_lower :
    let fr : Framer := { Framer.reset with sightings := [{ position := 9, age := 0 }, { position := 9, age := 16 },
                                                         { position := 12, age := 0 }, { position := 12, age := 16 }] }
    fr.acquires false = some 9 ∧ fr.acquires true = none ∧ fr.paired 12 = true := by decide +kernel

/-- A complete multiframe that is errored, one that is not, each below the criterion of 3. -/
theorem witness_judged :
    let a := modFramer 5 (fun fr => { fr with history := [true, false, false, true] }) inService
    let b := modFramer 5 (fun fr => { fr with state := .aligned 9 16, frames := overhead9 }) inService
    a.mode ≠ .loading ∧ (a.slot 5).framer.state = .aligned 17 16 ∧ wordSeen (a.slot 5).framer.frames 17 = false ∧
      (appendJudgement (a.slot 5).framer.history true).count true < a.params.criterion ∧
      (b.slot 5).framer.state = .aligned 9 16 ∧ wordSeen (b.slot 5).framer.frames 9 = true ∧
      (appendJudgement (b.slot 5).framer.history false).count true < b.params.criterion ∧
      ((b.slot 5).framer.frames[15]?).bind (Resp.ofFrame 9) = none := by decide +kernel

/-- The same unerrored multiframe with an ACK of tag 41 in frame 0, whose payload stands after position 9; and for a card in LOSS_HOLD
whose PGOOD, 0 until now, it brings to 1. -/
theorem witness_judged_response :
    let frames := overhead9.dropLast ++ [0xAA4#64]
    (frames[15]?).bind (Resp.ofFrame 9) = some { kind := .ack, tag := 41, cause := 0, value := 0 } ∧
      wordSeen frames 9 = true ∧ ResponseHeard 9 0xAA4#64 { kind := .ack, tag := 41, cause := 0, value := 0 } := by
  unfold ResponseHeard; decide +kernel

def powerless : State :=
  modFramer 5 (fun fr => { fr with state := .aligned 9 16, frames := overhead9, bits := { goodBits with pgood := some false },
                                   candidates := goodBits }) (withTxn writeTxn.suspend (cardIn .lossHold))

theorem witness_judged_return :
    powerless.mode ≠ .loading ∧ ReplayConsistent powerless ∧ (powerless.slot 5).card.state = .lossHold ∧
      wordSeen (powerless.slot 5).framer.frames 9 = true ∧
      (appendJudgement (powerless.slot 5).framer.history false).count true < powerless.params.criterion ∧
      ((powerless.slot 5).framer.frames[15]?).bind (Resp.ofFrame 9) = none ∧
      ((powerless.slot 5).framer.bits.debounce (powerless.slot 5).framer.candidates
        (statusAt (powerless.slot 5).framer.frames 9 0)) = goodBits ∧
      (powerless.slot 5).framer.bits.pgood ≠ some true ∧ (powerless.slot 5).link.setAside = none := by
  unfold ReplayConsistent ChannelsConsistent ListConsistent OrderConsistent; decide +kernel

/-- A multiframe of slot 5 at position 9, complete and unerrored, before which the bits stood at `old`. -/
def judgedAfter (old : StatusBits) (frames : List RxFrame) (s : State) : State :=
  modFramer 5 (fun fr => { fr with state := .aligned 9 16, frames := frames, bits := old,
                                   candidates := statusAt frames 9 0 }) s

/-- The same overhead with FRESH 1, and with PGOOD 0. -/
def freshFrames : List RxFrame := overhead9.set 14 0x200

def dimFrames : List RxFrame := overhead9.set 10 0

/-- Each reported change: FRESH rises, with ADOPT-pending clear and set, in service, in LOSS_HOLD and in DOWN; PGOOD falls; READY
rises. -/
theorem witness_judged_changes :
    let unready := { goodBits with ready := some false }
    let waiting := modCard 5 (fun c => { c with restartWait := true }) (cardIn .down)
    let a := judgedAfter goodBits freshFrames
    (∀ s ∈ [a inService, a (modCard 5 (fun c => { c with adoptPending := true }) inService), a (cardIn .lossHold), a waiting,
            judgedAfter goodBits dimFrames inService, judgedAfter unready overhead9 (cardIn .empty),
            judgedAfter unready overhead9 (cardIn .down), judgedAfter goodBits dimFrames waiting],
        s.mode ≠ .loading ∧ ReplayConsistent s ∧ (s.slot 5).framer.state = .aligned 9 16 ∧
          wordSeen (s.slot 5).framer.frames 9 = true ∧
          (appendJudgement (s.slot 5).framer.history false).count true < s.params.criterion ∧
          ((s.slot 5).framer.frames[15]?).bind (Resp.ofFrame 9) = none ∧ s.relinkBusy 5 = false) ∧
      goodBits.debounce (statusAt freshFrames 9 0) (statusAt freshFrames 9 0) = { goodBits with fresh := some true } ∧
      goodBits.debounce (statusAt dimFrames 9 0) (statusAt dimFrames 9 0) = { goodBits with pgood := some false } ∧
      unready.debounce (statusAt overhead9 9 0) (statusAt overhead9 9 0) = goodBits ∧
      Rises goodBits.fresh (some true) ∧ Rises unready.ready (some true) ∧ ((cardIn .empty).slot 5).card.candidate = none := by
  unfold ReplayConsistent ChannelsConsistent ListConsistent OrderConsistent Rises; decide +kernel

/-- A change of BUSY to 1 and back to 0 with the ready timer stopped and running; of BUSY and READY while it runs; and of BUSY of a
card in DOWN that waits for a restart. In each the card stays in its state. -/
theorem witness_judged_readyTimer :
    let busyFrames := overhead9.set 8 0x200
    let busy := { goodBits with busy := some true }
    let running := modCard 5 (fun c => { c with ready := .running 9 }) inService
    let waiting := modCard 5 (fun c => { c with restartWait := true, ready := .running 9 }) (cardIn .down)
    (∀ s ∈ [judgedAfter goodBits busyFrames inService, judgedAfter busy overhead9 running,
            judgedAfter { busy with ready := none } busyFrames running, judgedAfter busy overhead9 waiting],
        s.mode ≠ .loading ∧ ReplayConsistent s ∧ (s.slot 5).framer.state = .aligned 9 16 ∧
          wordSeen (s.slot 5).framer.frames 9 = true ∧
          (appendJudgement (s.slot 5).framer.history false).count true < s.params.criterion ∧
          ((s.slot 5).framer.frames[15]?).bind (Resp.ofFrame 9) = none ∧ ReadyTimed (s.slot 5).card.state ∧
          (s.slot 5).card.retired = false ∧
          yields (.multiframeJudged 5) s (fun t => (t.slot 5).card.state == (s.slot 5).card.state) = true) ∧
      goodBits.debounce (statusAt busyFrames 9 0) (statusAt busyFrames 9 0) = busy ∧
      busy.debounce (statusAt overhead9 9 0) (statusAt overhead9 9 0) = goodBits ∧
      StatusBits.debounce { busy with ready := none } (statusAt busyFrames 9 0) (statusAt busyFrames 9 0) = busy := by
  unfold ReplayConsistent ChannelsConsistent ListConsistent OrderConsistent ReadyTimed; decide +kernel

theorem witness_heldBack :
    ¬ HeldBack .inService goodBits ∧ HeldBack .inService { goodBits with busy := some true } ∧
      HeldBack .inService { goodBits with busy := some true, ready := none } ∧ HeldBack .replaying { goodBits with pgood := none } ∧
      ¬ HeldBack .down goodBits ∧ ¬ Rises goodBits.fresh goodBits.fresh := by
  unfold HeldBack Rises; decide +kernel

/-- What each of them does (the table of R120, and R118, R123 and R126). R112, R124: PGOOD back at 1 returns a card to service and
resumes its write; R144: with the identity read of a CLEAR owed it is identified instead. -/
theorem test_reportedChanges :
    let waiting := modCard 5 (fun c => { c with restartWait := true, absence := .running 9 }) (cardIn .down)
    let identified (t : State) := (t.slot 5).card.state == .identify && (t.slot 5).link.outstanding.any (fun x => x.req.word == 0)
    yields (.multiframeJudged 5) (judgedAfter goodBits freshFrames (withTxn writeTxn inService)) identified = true ∧
    yields (.multiframeJudged 5) (judgedAfter goodBits freshFrames
      (modCard 5 (fun c => { c with adoptPending := true }) (withTxn writeTxn inService))) (fun t =>
        (t.slot 5).card.state == .inService && (t.slot 5).link.outstanding == some writeTxn) = true ∧
    yields (.multiframeJudged 5) (judgedAfter goodBits dimFrames (withTxn writeTxn inService)) (fun t =>
      (t.slot 5).card.state == .lossHold && (t.slot 5).link.outstanding.any (fun x => !x.active && x.req.tag == 41)) = true ∧
    yields (.multiframeJudged 5) (judgedAfter { goodBits with ready := none } overhead9 (cardIn .empty)) (fun t =>
      (t.slot 5).card.state == .empty && (t.slot 5).link.outstanding.any (fun x => x.req.word == 0)) = true ∧
    yields (.multiframeJudged 5) (judgedAfter goodBits freshFrames waiting) (fun t =>
      identified t && (t.slot 5).card.absenceKept == some 9) = true ∧
    yields (.multiframeJudged 5) powerless (fun t =>
      (t.slot 5).card.state == .inService && (t.slot 5).link.outstanding.any (fun x => x.active && x.sends == 1 && x.sendDue)) = true ∧
    yields (.multiframeJudged 5) (modCard 5 (fun c => { c with adoptPending := true, identityOwed := true }) powerless) (fun t =>
      (t.slot 5).card.state == .identify && !(t.slot 5).card.adoptPending && !(t.slot 5).card.identityOwed) = true := by
  decide +kernel

/-- At the criterion of 3, and a silence one short of its limit. -/
theorem witness_outOfFrame :
    let a := modFramer 5 (fun fr => { fr with history := [true, true] }) inService
    let b := modFramer 5 (fun fr => { fr with silence := 1023 }) inService
    a.mode ≠ .loading ∧ ReplayConsistent a ∧ ReplayConsistent b ∧ (a.slot 5).card.state = .inService ∧
      (a.slot 5).framer.state = .aligned 17 16 ∧ (b.slot 5).framer.lossDeclared = false ∧
      a.params.criterion ≤ (appendJudgement (a.slot 5).framer.history (!wordSeen (a.slot 5).framer.frames 17)).count true ∧
      (up.slot 5).framer.state = .search ∧ (up.slot 5).framer.lossDeclared = false ∧
      ((modFramer 5 Framer.silenced up).slot 5).framer.lossDeclared = true := by
  unfold ReplayConsistent ChannelsConsistent ListConsistent OrderConsistent; decide +kernel

/-- Out of frame in every other card state: LOSS_HOLD, EMPTY, DOWN, IDENTIFY, REPLAYING, and QUARANTINED with and without a command
queued. -/
theorem witness_outOfFrame_states :
    (∀ st ∈ [CardState.inService, .lossHold, .empty, .down, .identify, .quarantined],
        ReplayConsistent (cardIn st) ∧ ((cardIn st).slot 5).framer.state = .aligned 17 16 ∧
          ((cardIn st).slot 5).framer.lossDeclared = false ∧ ((cardIn st).slot 5).card.state = st) ∧
      ReplayConsistent shelf ∧ (shelf.slot 5).card.state.inKeeping = true ∧ (shelf.slot 5).framer.state = .aligned 17 16 ∧
      (withEntry (entry 100 1 (.control .clear)) (cardIn .quarantined)).queueDepth 5 = 1 := by
  unfold ReplayConsistent ChannelsConsistent ListConsistent OrderConsistent; decide +kernel

/-- R127, R132: out-of-frame in IDENTIFY is a card failure, and no RESTART goes down a link that is not aligned. -/
theorem test_linkLossIdentify :
    yields (.lossOfSignal 5) (cardIn .identify) (fun t =>
      (t.slot 5).card.state == .down && (t.slot 5).card.attempt == 1 && (t.slot 5).link.pendingRelink.isNone) = true := by
  decide +kernel

/-- Stray by its tag, by its kind, and while the transaction is SUSPENDED; then one that fits, with the head of word 2. -/
theorem witness_response :
    let q := entry 100 2 .locked
    let s := withTxn writeTxn (withEntry q inService)
    (s.slot 5).link.outstanding = some writeTxn ∧ (s.slot 5).queue = q :: [] ∧ writeTxn.active = true ∧ (41 : Tag) = writeTxn.req.tag ∧
      writeTxn.req.kind = .write ∧ writeTxn.source = .queueHead ∧ q.word = 2 ∧ (42 : Tag) ≠ writeTxn.req.tag ∧
      RespKind.fits .data writeTxn.req.kind = false ∧ RespKind.fits .nak writeTxn.req.kind = true ∧ writeTxn.suspend.active = false := by
  decide +kernel

/-- Heads of a KEEP word, of a SEQUENCE word and of a command, in service with the journal complete, and none of the three. -/
theorem witness_response_recorded :
    let s := withTxn writeTxn (withEntry (entry 100 20 .plain) inService)
    let c := withTxn writeTxn (withEntry { entry 100 1 (.control .rebase) with value := 4, cls := none } inService)
    s.mode = .normal ∧ (s.slot 5).card.state = .inService ∧ (s.slot 5).card.incomplete = false ∧
      (s.slot 5).queue = entry 100 20 .plain :: [] ∧ 4 ≤ (entry 100 20 .plain).word.toNat ∧
      (s.rangeOf 5 20).map (fun x => x.1) = some 0 ∧ (entry 100 20 .plain).cls = some .keep ∧
      (s.rangeOf 5 1025).map (fun x => x.1) = some 1 ∧
      (c.slot 5).queue.map (fun q => q.kind) = [.control .rebase] ∧
      ((modCard 5 (fun c => { c with incomplete := true }) s).slot 5).card.incomplete = true ∧
      ((modCard 5 (fun c => { c with state := .quarantined }) c).slot 5).card.state = .quarantined := by decide +kernel

/-- An ADOPT and a replay record under way, in each state that an ACK ends. -/
theorem witness_response_relink :
    let adopt := Txn.start (relinkRequest .adopt 41) (.relink { what := .adopt, forced := false })
    let record := Txn.start (relinkRequest (.record 20 7) 41) (.relink { what := .record 20 7, forced := false })
    let bound := modCard 5 (fun c => { c with candidate := some lineId }) (withTxn adopt (cardIn .empty))
    adopt.active = true ∧ adopt.req.kind = .write ∧ RespKind.fits .ack .write = true ∧
      (bound.slot 5).card.state = .empty ∧ (bound.slot 5).card.candidate = some lineId ∧
      ((withTxn adopt inService).slot 5).card.state = .inService ∧ ((withTxn adopt shelf).slot 5).card.state = .replaying ∧
      ((withTxn adopt (cardIn .identify)).slot 5).card.state = .identify ∧ record.req.kind = .write ∧
      ((withTxn record (modCard 5 (fun c => { c with nakCount := 6 }) shelf)).slot 5).card.nakCount = 6 := by decide +kernel

/-- A NAK of ADOPT, of a seventh and an eighth record, of an identity read, and a RESTART under way. -/
theorem witness_response_nak :
    let restart := Txn.start (relinkRequest .restart 41) (.relink { what := .restart, forced := true })
    let identity := Txn.start (relinkRequest .identity 41) (.relink { what := .identity, forced := false })
    let seven := modCard 5 (fun c => { c with nakCount := 7 }) shelf
    restart.req.kind = .write ∧ RespKind.fits .nak .write = true ∧ RespKind.fits .nak .read = true ∧ identity.req.kind = .read ∧
      (seven.slot 5).card.nakCount = 7 ∧ (seven.slot 5).card.state = .replaying ∧
      ((withTxn identity (cardIn .identify)).slot 5).card.state = .identify ∧
      ((withTxn identity (cardIn .empty)).slot 5).card.state = .empty ∧
      ((withTxn restart (cardIn .down)).slot 5).link.outstanding = some restart := by decide +kernel

/-- R139, R119: a NAK of ADOPT is a card failure in service and drops an EMPTY slot's candidate. R130: the RESTART's ACK. -/
theorem test_relinkAnswers :
    let adopt := Txn.start (relinkRequest .adopt 41) (.relink { what := .adopt, forced := false })
    let restart := Txn.start (relinkRequest .restart 41) (.relink { what := .restart, forced := true })
    let nak : Resp := { kind := .nak, tag := 41, cause := 0, value := 0 }
    ((takeResponse 5 nak (withTxn adopt inService)).slot 5).card.state = .down ∧
      ((takeResponse 5 nak (withTxn adopt (modCard 5 (fun c => { c with candidate := some lineId }) (cardIn .empty)))).slot
        5).card.candidate = none ∧
      ((takeResponse 5 { nak with kind := .ack } (withTxn restart (modCard 5 (fun c => { c with wipeOwed := true })
        (cardIn .down)))).slot 5).card.wipeOwed = false := by decide +kernel

theorem witness_response_notControl : ∀ c : Command, (entry 100 2 .locked).kind ≠ .control c := by
  intro c h; cases h

theorem witness_identity :
    let s := cardIn .identify
    let expecting := modCard 5 (fun c => { c with expectedRestart := true, attempt := 1 }) s
    let owing := modCard 5 (fun c => { c with wipeOwed := true }) s
    let lost := modCard 5 (fun c => { c with incomplete := true }) s
    (s.slot 5).card.state = .identify ∧ (s.slot 5).card.bound = some lineId ∧ s.mode = .normal ∧ trunkId.kind ≠ lineId.kind ∧
      trunkId.serial ≠ lineId.serial ∧ (s.slotEntry 5).likeReplacement = true ∧
      (expecting.slot 5).card.expectedRestart = true ∧ (expecting.slot 5).card.attempt < 2 ∧ s.pgoodIsOne 5 = true ∧
      (s.slot 5).card.expectedRestart = false ∧ (s.slot 5).card.replayStarted = false ∧ (s.slot 5).card.incomplete = false ∧
      (s.slot 5).card.wipeOwed = false ∧ (owing.slot 5).card.wipeOwed = true ∧ (lost.slot 5).card.incomplete = true := by decide +kernel

/-- The store kept with PGOOD 0, a renewal in UNPROTECTED mode, and a store not renewed for the third time. -/
theorem witness_identity_more :
    let dim := modFramer 5 (fun fr => { fr with bits := { goodBits with pgood := some false } }) (cardIn .identify)
    let plain := { cardIn .identify with loader := bare.loader }
    let third := modCard 5 (fun c => { c with replayStarted := true, attempt := 2 }) (cardIn .identify)
    dim.pgoodIsOne 5 = false ∧ (dim.slot 5).card.expectedRestart = false ∧ (dim.slot 5).card.replayStarted = false ∧
      plain.mode = .unprotected ∧ (plain.slot 5).card.incomplete = false ∧ (plain.slot 5).card.bound = some lineId ∧
      (third.slot 5).card.replayStarted = true ∧ ¬ (third.slot 5).card.attempt < 2 := by decide +kernel

/-- R129, R130, R132. -/
theorem test_identityOutcomes :
    let dim := modFramer 5 (fun fr => { fr with bits := { goodBits with pgood := some false } })
      (modCard 5 (fun c => { c with absenceKept := some 7 }) (cardIn .identify))
    let third := modCard 5 (fun c => { c with expectedRestart := true, attempt := 2 }) (cardIn .identify)
    ((compareIdentity 5 lineId false dim).slot 5).card.absence = .running 7 ∧
      ((compareIdentity 5 lineId true { cardIn .identify with loader := bare.loader }).slot 5).link.pendingRelink =
        some { what := .adopt, forced := false } ∧
      ((compareIdentity 5 lineId false third).slot 5).card.reason = some .unstable := by decide +kernel

/-- The DATA of an identity read in IDENTIFY, with FRESH valid and invalid, and in EMPTY with FRESH 0 and 1. -/
theorem witness_identityData :
    let x (f : Bool) := Txn.start (relinkRequest .identity 41) (.relink { what := .identity, forced := f })
    let r : Resp := { kind := .data, tag := 41, cause := 0, value := lineId.toWord }
    let s := withTxn (x true) (cardIn .identify)
    let blind := modFramer 5 (fun fr => { fr with bits := { goodBits with fresh := none } }) s
    let bare := withTxn (x false) (cardIn .empty)
    let fresh := modFramer 5 (fun fr => { fr with bits := { goodBits with fresh := some true } }) bare
    (s.slot 5).link.outstanding = some (x true) ∧ (x true).active = true ∧ (x true).req.kind = .read ∧ r.tag = (x true).req.tag ∧
      lineId = { kind := r.value.extractLsb' 24 8, revision := r.value.extractLsb' 16 8, serial := r.value.extractLsb' 0 16 } ∧
      (s.slot 5).card.state = .identify ∧ (s.bits 5).fresh = some false ∧ (blind.bits 5).fresh = none ∧
      (bare.slot 5).card.state = .empty ∧ (bare.bits 5).fresh = some false ∧ (fresh.slot 5).card.state = .empty ∧
      (fresh.bits 5).fresh = some true := by decide +kernel

/-- With its read and DATA: a watched card, the bound one or another, and one in service whose CLEAR is not done. -/
theorem witness_identityData_bound :
    let watched := modCard 5 (fun c => { c with reason := some .absent }) (cardIn .quarantined)
    let cleared := modCard 5 (fun c => { c with adoptPending := true, identityOwed := true }) stocked
    (watched.slot 5).card.state = .quarantined ∧ (watched.slot 5).card.reason = some .absent ∧
      (watched.slot 5).card.bound = some lineId ∧ lineId.kind ≠ trunkId.kind ∧ (watched.bits 5).fresh = some false ∧
      (cleared.slot 5).card.state = .inService ∧ (cleared.slot 5).card.identityOwed = true ∧
      (cleared.slot 5).card.bound = some lineId ∧ BookkeepingGood 5 cleared := by
  exact ⟨rfl, rfl, rfl, by decide, rfl, rfl, rfl, rfl, witness_bookkeeping⟩

theorem witness_acknowledgedCommand :
    (stocked.slot 5).card.state = .inService ∧ BookkeepingGood 5 stocked ∧
      ((modCard 5 (fun c => { c with state := .quarantined }) stocked).slot 5).card.state = .quarantined ∧
      BookkeepingGood 5 (modCard 5 (fun c => { c with state := .quarantined }) stocked) :=
  ⟨rfl, witness_bookkeeping, rfl, witness_bookkeeping⟩

theorem witness_readyLimit :
    let a := modCard 5 (fun c => { c with ready := .running 1 }) (cardIn .empty)
    let b := modCard 5 (fun c => { c with ready := .running 1, attempt := 1 }) (cardIn .identify)
    (a.slot 5).card.ready.isRunning = true ∧ (a.slot 5).card.state = .empty ∧ (b.slot 5).card.ready.isRunning = true ∧
      (b.slot 5).card.state ≠ .empty ∧ (b.slot 5).card.state.readyTimed = true ∧ (b.slot 5).card.attempt < 2 := by decide +kernel

theorem witness_cardTimers :
    let held := modCard 5 (fun c => { c with holdOff := .running 1 }) (cardIn .lossHold)
    let down := modCard 5 (fun c => { c with absence := .running 1 }) (cardIn .down)
    (inService.slot 5).card.state = .inService ∧ (inService.slot 5).card.stability.isRunning = true ∧
      (held.slot 5).card.state = .lossHold ∧ (held.slot 5).card.holdOff.isRunning = true ∧
      (down.slot 5).card.state = .down ∧ (down.slot 5).card.absence.isRunning = true ∧ ReplayIdle down := by
  unfold ReplayIdle; decide +kernel

theorem witness_pacer :
    let warned := { up with pacer := { up.pacer with pwarn := true, quiet := .running 1 } }
    up.mode = .normal ∧ up.pacer.pwarn = false ∧ ReplayIdle up ∧ bare.mode ≠ .normal ∧ warned.pacer.pwarn = true ∧ ReplayIdle warned ∧
      warned.pacer.quiet.isRunning = true := by
  unfold ReplayIdle; decide +kernel

/-- Nothing is left to consider before a tick that lets a claim be granted. -/
theorem witness_nothingToConsider :
    ReplayConsistent patient ∧ IdleOutsideNormal patient ∧ KeepingAligned patient ∧ NothingToConsider patient ∧
      ∃ t, exec .pacerTick patient = .next t := by
  refine ⟨?_, fun h => absurd (show patient.mode = .normal by decide +kernel) h, ?_, ?_,
    by simp only [exec, execPacerTick]; split <;> exact ⟨_, rfl⟩⟩
  · unfold ReplayConsistent ChannelsConsistent ListConsistent OrderConsistent; decide +kernel
  · unfold KeepingAligned; decide +kernel
  · unfold NothingToConsider; decide +kernel

theorem witness_grant :
    let c : Claim := { slot := 7, priority := 1, cost := 800, kind := .admission }
    bestClaim shelf.pacer.claims = some c ∧ shelf.pacer.pwarn = false ∧ c.cost ≤ shelf.pacer.credit ∧
      ¬ c.cost ≤ ({ shelf with pacer := { shelf.pacer with credit := 799 } }).pacer.credit := by decide +kernel

/-- The FRESH head granted; the RESUME head of `shelf`, with channel 0 free; and card 5's record claim granted. -/
theorem witness_grant_takes :
    let a := { rivals with pacer := { rivals.pacer with
      credit := 800, claims := [{ slot := 4, priority := 1, cost := 160, kind := .admission }] } }
    let b := { rivals with pacer := { rivals.pacer with claims := [{ slot := 5, priority := 1, cost := 16, kind := .record }] } }
    ReplayConsistent rivals ∧ ReplayConsistent shelf ∧ rivals.channel 0 = none ∧ shelf.channel 0 = none ∧
      rivals.rpe.list.head? = some { slot := 4, priority := 1, stamp := 4, wait := .fresh } ∧
      shelf.rpe.list.head? = some { slot := 6, priority := 1, stamp := 4, wait := .resume } ∧
      (considerGrant a).isSome = true ∧ (considerGrant b).isSome = true ∧
      (rivals.channel 1).any (fun u => u.slot == 5 && u.step == .claimed { word := 20, value := 0x0100, range := 0, cost := 16 }) = true := by
  unfold ReplayConsistent ChannelsConsistent ListConsistent OrderConsistent; decide +kernel

/-- A flagged channel at 32 records since resume. -/
theorem witness_suspend :
    let s := modCard 5 (fun c => { c with sinceResume := 32 }) (flagChannels (fun _ => true) true rivals)
    ReplayConsistent s ∧ s.channel 1 = some { slot := 5, stamp := 3, step := .claimed { word := 20, value := 0x0100, range := 0, cost := 16 },
                                              suspendRequested := true } ∧
      s.busyIsZero 5 = true ∧ (s.slot 5).card.sinceResume = 32 ∧ s.channel 0 = none ∧ s.channel 2 = none ∧ s.channel 3 = none := by
  unfold ReplayConsistent ChannelsConsistent ListConsistent OrderConsistent; decide +kernel

/-- All channels held, by cards 5 to 8 in that order of admission, and card 4 of class 0 at the head of the list. -/
def crowded : State :=
  let holding : SlotState := { served with card := { served.card with state := .replaying, stability := .stopped } }
  let use (n : Slot) : Option ChannelUse := some { slot := n, stamp := n.val, step := .waiting, suspendRequested := false }
  let s := modSlot 8 (fun _ => holding) (modSlot 7 (fun _ => holding) (modSlot 6 (fun _ => holding) (modCard 3 (fun _ => Card.reset) rivals)))
  { s with rpe := { channels := #v[use 5, use 6, use 7, use 8], list := [{ slot := 4, priority := 0, stamp := 9, wait := .fresh }],
                    order := [5, 6, 7, 8], arrival := 10 } }

theorem witness_preempt :
    ReplayConsistent crowded ∧ crowded.rpe.order = [5, 6, 7] ++ 8 :: [] ∧ (∀ d : ChannelNo, crowded.channel d ≠ none) ∧
      (∀ d : ChannelNo, (crowded.channel d).any (fun y => y.suspendRequested) = false) ∧
      (∀ m ∈ crowded.rpe.order, (crowded.slotEntry m).priority ≤ (crowded.slotEntry 8).priority) ∧
      (considerPreempt crowded).any (fun t => (t.channel 3).any (fun y => y.suspendRequested)) = true := by
  unfold ReplayConsistent ChannelsConsistent ListConsistent OrderConsistent; decide +kernel

/-- Card 4 is due a claim that does not stand, and card 3's stands without being due. -/
theorem witness_admissionClaim :
    AdmissionDue 4 rivals ∧ ¬ AdmissionDue 3 rivals ∧ (∀ d ∈ rivals.pacer.claims, d.kind = .admission → d.slot ≠ 4) ∧
      (∀ d ∈ rivals.pacer.claims, d.kind = .admission → d = { slot := 3, priority := 1, cost := 800, kind := .admission }) ∧
      (∀ m : Slot, ¬ AdmissionDue m crowded) ∧ (considerAdmissionPlaced rivals).isSome = true ∧
      (∀ d ∈ up.pacer.claims, d.kind = .admission → AdmissionDue d.slot up) := by
  unfold AdmissionDue; decide +kernel

/-- Card 5's channel in a given step, its supply good or not, over a list of entries. -/
def channelAt (step : ChannelStep) (bits : StatusBits) (l : List Held) : State :=
  modFramer 5 (fun fr => { fr with bits := bits })
    (modJournal 5 (fun _ => l) (setChannel 1 (some { slot := 5, stamp := 3, step := step, suspendRequested := false }) rivals))

/-- A channel in WAITING with a STALE entry, a damaged one and none; ADOPTING; and CLAIMED and ADOPTING with PGOOD 0. -/
theorem witness_channel :
    let old : Held := { id := 1, entry := (JEntry.fresh 5 20 0x0100 0 .keep).flip }
    let bad : Held := { old with entry := { old.entry with check := !old.entry.check } }
    let dim := { goodBits with pgood := some false }
    let record : ReplayRecord := { word := 20, value := 0x0100, range := 0, cost := 16 }
    (∀ s ∈ [channelAt .waiting goodBits [old], channelAt .waiting goodBits [bad], channelAt .waiting goodBits [],
            channelAt .adopting goodBits [], channelAt (.claimed record) dim [old],
            handOver 5 .adopt false (channelAt .adopting dim [])],
        ReplayConsistent s ∧ (s.channel 1).any (fun u => u.slot == 5) = true ∧ s.channel 0 = none ∧ s.channel 2 = none ∧
          s.channel 3 = none) ∧
      (channelAt .waiting goodBits [old]).oldestStale 5 = some old ∧ old.entry.parityError = false ∧
      bad.entry.parityError = true ∧ (channelAt .waiting goodBits []).oldestStale 5 = none ∧
      (channelAt .adopting goodBits []).relinkBusy 5 = false ∧ (channelAt .adopting dim []).pgoodIsOne 5 = false ∧
      ((handOver 5 .adopt false (channelAt .adopting dim [])).slot 5).link.pendingRelink ≠ none := by
  unfold ReplayConsistent ChannelsConsistent ListConsistent OrderConsistent; decide +kernel

/-- A flag whose head is of no better class than any REPLAYING card, which clears it, and one whose head still is. -/
theorem witness_clearFlag :
    let flagged := flagChannels (fun u => u.slot == 8) true crowded
    let equal := { flagged with rpe := { flagged.rpe with list := [{ slot := 4, priority := 1, stamp := 9, wait := .fresh }] } }
    (∀ d : ChannelNo, ∀ y ∈ equal.channel d, (equal.slotEntry y.slot).priority ≤ 1) ∧
      (equal.channel 3).any (fun y => y.suspendRequested) = true ∧ (considerClearFlag equal).isSome = true ∧
      (∀ d : ChannelNo, flagged.channel d ≠ none) ∧ considerClearFlag flagged = none ∧
      (flagged.channel 3).any (fun u => decide (0 < (flagged.slotEntry u.slot).priority)) = true := by decide +kernel

theorem witness_admissionList :
    let e : ListEntry := { slot := 9, priority := 0, stamp := 6, wait := .fresh }
    shelf.rpe.list.Pairwise (fun x y => x.priority < y.priority ∨ (x.priority = y.priority ∧ x.stamp < y.stamp)) ∧
      (∀ x ∈ shelf.rpe.list, x.priority ≠ e.priority ∨ x.stamp ≠ e.stamp) ∧ 3 ∈ shelf.rpe.stamps ∧ 5 ∈ shelf.rpe.stamps := by
  decide +kernel

/-- Stamps and list in order, below the counter's last value and at it, where the cards 5, 6 and 7 become 0, 1 and 2. -/
theorem witness_stampsInOrder :
    let last := { shelf with rpe := { shelf.rpe with arrival := 65535 } }
    ReplayConsistent (next .pacerTick shelf) ∧ StampsInOrder (next .pacerTick shelf) ∧ ListInOrder (next .pacerTick shelf) ∧
      shelf.rpe.arrival ≠ 65535 ∧ last.rpe.arrival = 65535 ∧ StampsInOrder last ∧ ListInOrder last ∧
      [3, 4, 5].map last.stampRank = [0, 1, 2] ∧
      (joinList 9 last).rpe.list.map (fun e => (e.slot, e.stamp)) = [(6, 1), (7, 2), (9, 3)] := by
  unfold ReplayConsistent ChannelsConsistent ListConsistent OrderConsistent StampsInOrder ListInOrder; decide +kernel

end Sys2Proof.Tests
end

section
/-!
PROOFS. Time and the transaction timers: the REFCLK period that passes while no command waits, and the resends at the expiry of a
response timer (R107) and of a WAIT timer (R108).
-/

namespace Sys2Proof.Machine

/-! ## The step -/

theorem step_of_pending_nil {s : State} (h : s.pending = []) : step s = .next (idle s) := by rw [step, h]

theorem step_of_pending_cons {s : State} {c : Instr} {rest : List Instr} (h : s.pending = c :: rest) :
    step s = exec c { s with pending := rest } := by rw [step, h]

/-! ## A REFCLK period -/

/-- A REFCLK period advances each slot's timers by the published parameters. -/
theorem idle_slot (s : State) (n : Slot) : (idle s).slot n = (s.slot n).advance s.params := by simp [idle, State.slot]

theorem ticksOn_advance (limit : Nat) (t : Timer) : TicksOn limit t (t.advance limit) :=
  ⟨fun h => by rw [h]; rfl, fun e h => by rw [h]; rfl⟩

/-- A transaction's three timers tick on, and nothing else of its record changes. -/
theorem txnAdvance_ticks (x : Txn) :
    { x.advance with response := x.response, wait := x.wait, commit := x.commit } = x ∧
      TicksOn 32768 x.response x.advance.response ∧ TicksOn 3277 x.wait x.advance.wait ∧
      TicksOn 819200 x.commit x.advance.commit :=
  ⟨rfl, ticksOn_advance _ _, ticksOn_advance _ _, ticksOn_advance _ _⟩

/-- Settles O2: the step is a REFCLK period, which advances each timer of the pacer, the card and the outstanding transaction. -/
theorem idleStepOnlyAdvancesTimers : Obligations.IdleStepOnlyAdvancesTimers := by
  unfold Obligations.IdleStepOnlyAdvancesTimers
  intro s n h
  have hlink : ((s.slot n).advance s.params).link.outstanding = (s.slot n).link.outstanding.map Txn.advance := rfl
  refine ⟨idle s, step_of_pending_nil h, rfl, rfl, rfl, rfl, rfl, rfl, h, rfl, ticksOn_advance _ _, ?_⟩
  rw [idle_slot]
  refine ⟨rfl, rfl, rfl, rfl, ticksOn_advance _ _, ticksOn_advance _ _, ticksOn_advance _ _, ticksOn_advance _ _, rfl, ?_, ?_⟩
  · rw [hlink, Option.isSome_map]
  · intro x hx y hy
    rw [hlink, hx, Option.map_some] at hy
    cases hy
    exact txnAdvance_ticks x

/-! ## Expiries that resend -/

/-- An event that changes a link's record and no more keeps everything outside that link. -/
theorem onlyLink_modLink_beginEvent (n : Slot) (f : Link → Link) (s : State) : OnlyLink n s (modLink n f (beginEvent s)) := by
  have k := modLink_linkStep n f (beginEvent s)
  exact ⟨k.shared, ⟨rfl, rfl⟩, k.others, k.framer, k.card, k.journal, modLink_queue_self n f _⟩

theorem execResponseTimeout_resends {n : Slot} {s : State} {x : Txn} (h : (s.slot n).link.outstanding = some x)
    (active : x.active = true) (running : x.response.isRunning = true) (few : x.sends < 4) :
    execResponseTimeout n s = .next (modLink n (fun l => { l with outstanding := some x.resend }) (beginEvent s)) := by
  simp [execResponseTimeout, h, active, running, few, Config.maxSends]

theorem execWaitTimerExpiry_resends {n : Slot} {s : State} {x : Txn} (h : (s.slot n).link.outstanding = some x)
    (active : x.active = true) (running : x.wait.isRunning = true) :
    execWaitTimerExpiry n s = .next (modLink n (fun l => { l with outstanding := some x.resendAfterWait }) (beginEvent s)) := by
  simp [execWaitTimerExpiry, h, active, running]

/-- Settles O47: each expiry replaces the outstanding transaction's record by its resend and touches nothing else. -/
theorem timeoutsResendTheRequest : Obligations.TimeoutsResendTheRequest := by
  unfold Obligations.TimeoutsResendTheRequest
  intro s n x h active
  constructor
  · intro running few
    exact ⟨_, execResponseTimeout_resends h active running few, onlyLink_modLink_beginEvent n _ s, modLink_link_self n _ _⟩
  · intro running
    exact ⟨_, execWaitTimerExpiry_resends h active running, onlyLink_modLink_beginEvent n _ s, modLink_link_self n _ _⟩

end Sys2Proof.Machine
end

section
/-!
PROOFS. The tags of the links (R101): what the operations of the blocks leave of every link's tag counter and last write tag, and
that starting a request, which alone moves them, keeps the two apart.
-/

namespace Sys2Proof.Machine

/-! ## The tags of every link -/

/-- The two tags that a link keeps from one request to the next: its tag counter and its last write tag (R101). -/
def Link.tags (l : Link) : Tag × Option Tag := (l.tagCounter, l.lastWriteTag)

/-- The tags of each slot's link. -/
def State.tags (s : State) (m : Slot) : Tag × Option Tag := (s.slot m).link.tags

theorem TagsApart.congr {s t : State} (h : TagsApart s) (e : t.tags = s.tags) : TagsApart t := fun m => by
  have em : ((t.slot m).link.tagCounter, (t.slot m).link.lastWriteTag) =
      ((s.slot m).link.tagCounter, (s.slot m).link.lastWriteTag) := congrFun e m
  obtain ⟨hc, hl⟩ := Prod.mk.inj em
  rw [hc, hl]
  exact h m

/-- Where every slot's link has its tags, the state has. -/
theorem tags_of_links {s t : State} (h : ∀ m : Slot, (t.slot m).link.tags = (s.slot m).link.tags) : t.tags = s.tags := funext h

/-! ## The state's operations -/

section StateOperations

variable (n : Slot) (s : State)

@[simp] theorem tags_with_loader (v : Loader) : State.tags { s with loader := v } = s.tags := rfl
@[simp] theorem tags_with_pool (v : Pool) : State.tags { s with pool := v } = s.tags := rfl
@[simp] theorem tags_with_wqm (v : Wqm) : State.tags { s with wqm := v } = s.tags := rfl
@[simp] theorem tags_with_port (v : Port) : State.tags { s with port := v } = s.tags := rfl
@[simp] theorem tags_with_rpe (v : Rpe) : State.tags { s with rpe := v } = s.tags := rfl
@[simp] theorem tags_with_pacer (v : Pacer) : State.tags { s with pacer := v } = s.tags := rfl
@[simp] theorem tags_with_partFault (v : Bool) : State.tags { s with partFault := v } = s.tags := rfl
@[simp] theorem tags_with_pending (v : List Instr) : State.tags { s with pending := v } = s.tags := rfl
@[simp] theorem beginEvent_tags : (beginEvent s).tags = s.tags := rfl
@[simp] theorem respond_tags (r : Response) : (respond r s).tags = s.tags := rfl
@[simp] theorem updateLowMark_tags : (updateLowMark s).tags = s.tags := rfl

@[simp] theorem modCard_tags (f : Card → Card) : (modCard n f s).tags = s.tags := tags_of_links fun m => by simp
@[simp] theorem modFramer_tags (f : Framer → Framer) : (modFramer n f s).tags = s.tags := tags_of_links fun m => by simp
@[simp] theorem modQueue_tags (f : List QEntry → List QEntry) : (modQueue n f s).tags = s.tags :=
  tags_of_links fun m => by simp

/-- A change of a link that spares its tags spares every link's. -/
theorem modLink_tags (f : Link → Link) (h : ∀ l : Link, (f l).tags = l.tags := by intro l; rfl) :
    (modLink n f s).tags = s.tags :=
  tags_of_links fun m => by
    by_cases e : m = n
    · subst e; simp [h]
    · simp [e]

end StateOperations

/-- A journal's step changes no link. -/
theorem JournalStep.tags {n : Slot} {s t : State} (h : JournalStep n s t) : t.tags = s.tags :=
  tags_of_links fun m => by
    by_cases e : m = n
    · subst e; rw [h.link]
    · rw [h.others m e]

/-! ## The transaction logic but for starting a request -/

section LinkOperations

variable (n : Slot) (s : State)

@[simp] theorem handOver_tags (w : RelinkKind) (b : Bool) : (handOver n w b s).tags = s.tags :=
  modLink_tags n s _

@[simp] theorem withdrawRelink_tags : (withdrawRelink n s).tags = s.tags := modLink_tags n s _

@[simp] theorem askUnlock_tags : (askUnlock n s).tags = s.tags := modLink_tags n s _

@[simp] theorem askUnlockIfAligned_tags : (askUnlockIfAligned n s).tags = s.tags := by
  unfold askUnlockIfAligned
  split
  · exact askUnlock_tags n s
  · rfl

@[simp] theorem abandonHead_tags : (abandonHead n s).tags = s.tags := tags_of_links fun m => by
  by_cases e : m = n
  · subst e; simp [abandonHead, Link.tags]
  · simp [abandonHead, e]

@[simp] theorem abandonAll_tags : (abandonAll n s).tags = s.tags :=
  (modLink_tags n _ _).trans (abandonHead_tags n s)

@[simp] theorem cutOffOutstanding_tags (b : Bool) : (cutOffOutstanding n b s).tags = s.tags :=
  modLink_tags n s _

@[simp] theorem setAsideSuspended_tags : (setAsideSuspended n s).tags = s.tags := modLink_tags n s _ fun l => by
  cases l.outstanding with
  | none => rfl
  | some t => dsimp only; split <;> rfl

@[simp] theorem resumeHead_tags : (resumeHead n s).tags = s.tags := modLink_tags n s _ fun l => by
  cases l.setAside with
  | some t => rfl
  | none =>
    cases l.outstanding with
    | none => rfl
    | some t => dsimp only; split <;> rfl

@[simp] theorem endTransaction_tags : (endTransaction n s).tags = s.tags := modLink_tags n s _

@[simp] theorem endAnswered_tags (t : Txn) : (endAnswered n t s).tags = s.tags := modLink_tags n s _

/-- The start of a transmitted multiframe places a send that has its tag already. -/
theorem beginMultiframe_tags (l : Link) : l.beginMultiframe.tags = l.tags := by
  obtain ⟨r, rest, -, e⟩ | ⟨x, -, -, -, -, e⟩ | ⟨-, -, e⟩ := beginMultiframe_cases l <;> rw [e] <;> rfl

end LinkOperations

/-! ## The journal, the queues and the Replay Engine's books -/

section JournalAndQueue

variable (n : Slot) (s : State)

@[simp] theorem journalFree_tags : (journalFree n s).tags = s.tags := (journalFree_journalStep n s).tags
@[simp] theorem journalRestart_tags : (journalRestart n s).tags = s.tags := (journalRestart_journalStep n s).tags
@[simp] theorem makeIncomplete_tags : (makeIncomplete n s).tags = s.tags := (makeIncomplete_journalStep n s).tags
@[simp] theorem recordWrite_tags (q : QEntry) : (recordWrite n q s).tags = s.tags := (recordWrite_journalStep n q s).tags
@[simp] theorem markStale_tags : (markStale n s).tags = s.tags := (markStale_journalStep n s).tags
@[simp] theorem staleJournal_tags : (staleJournal n s).tags = s.tags := (staleJournal_journalStep n s).tags
@[simp] theorem confirmRecord_tags : (confirmRecord n s).tags = s.tags := (confirmRecord_journalStep n s).tags
@[simp] theorem refuseRecord_tags : (refuseRecord n s).tags = s.tags := (refuseRecord_journalStep n s).tags

@[simp] theorem acceptWrite_tags (w : WordNo) (v : Word32) (k : WriteKind) (c : Option RangeClass) :
    (acceptWrite n w v k c s).tags = s.tags := modQueue_tags n _ _

@[simp] theorem retireHead_tags : (retireHead n s).tags = s.tags := by
  unfold retireHead
  split
  · rfl
  · simp

@[simp] theorem discardQueue_tags : (discardQueue n s).tags = s.tags := by
  unfold discardQueue
  split
  · rfl
  · simp

@[simp] theorem placeClaim_tags (c : Nat) (k : ClaimKind) : (placeClaim n c k s).tags = s.tags := rfl
@[simp] theorem withdrawClaim_tags : (withdrawClaim n s).tags = s.tags := rfl
@[simp] theorem joinList_tags : (joinList n s).tags = s.tags := rfl
@[simp] theorem releaseReplay_tags : (releaseReplay n s).tags = s.tags := rfl
@[simp] theorem setStep_tags (st : ChannelStep) : (setStep n st s).tags = s.tags := rfl
@[simp] theorem setChannel_tags (c : ChannelNo) (u : Option ChannelUse) : (setChannel c u s).tags = s.tags := rfl
@[simp] theorem flagChannels_tags (p : ChannelUse → Bool) (b : Bool) : (flagChannels p b s).tags = s.tags := rfl

end JournalAndQueue

/-! ## The Relink Controller: moves between card states -/

section Moves

variable (n : Slot) (s : State)

@[simp] theorem readyTimerOnMove_tags : (readyTimerOnMove n s).tags = s.tags := by
  unfold readyTimerOnMove
  split <;> exact modCard_tags n s _

@[simp] theorem readyTimerOnLink_tags (b : Bool) : (readyTimerOnLink n b s).tags = s.tags := by
  unfold readyTimerOnLink
  split
  · split <;> simp
  · simp

@[simp] theorem endWaitingRead_tags : (endWaitingRead n s).tags = s.tags := by
  have given (t : State) : (modLink n (fun l =>
      { l with pendingRead := none, outstanding := l.outstanding.filter (fun x => x.source != .read) }) t).tags = t.tags :=
    modLink_tags n t _
  unfold endWaitingRead
  split
  · rfl
  · split
    · dsimp only
      split <;> simp [given]
    · rfl

@[simp] theorem dropLock_tags : (dropLock n s).tags = s.tags := by
  unfold dropLock
  split
  · rfl
  · split <;> simp

@[simp] theorem leaveService_tags (b : Bool) : (leaveService n b s).tags = s.tags := by
  rw [leaveService, modCard_tags, dropLock_tags, endWaitingRead_tags]

@[simp] theorem moveTo_tags (st : CardState) : (moveTo n st s).tags = s.tags := by
  unfold moveTo
  simp only [readyTimerOnMove_tags, modCard_tags, withdrawRelink_tags]
  split
  · exact leaveService_tags n s _
  · rfl

@[simp] theorem enterLossHold_tags : (enterLossHold n s).tags = s.tags := by
  unfold enterLossHold
  dsimp only
  split <;> simp

@[simp] theorem enterService_tags : (enterService n s).tags = s.tags := by rw [enterService, modCard_tags, moveTo_tags]

@[simp] theorem checkSupply_tags : (checkSupply n s).tags = s.tags := by
  unfold checkSupply
  split
  · rfl
  · exact enterLossHold_tags n s

@[simp] theorem enterIdentify_tags : (enterIdentify n s).tags = s.tags := by
  rw [enterIdentify, handOver_tags, setAsideSuspended_tags, moveTo_tags]

@[simp] theorem identifyIfUp_tags : (identifyIfUp n s).tags = s.tags := by
  unfold identifyIfUp
  split
  · exact enterIdentify_tags n s
  · rfl

@[simp] theorem enterDown_tags (b : Bool) (e : Nat) : (enterDown n b e s).tags = s.tags := by
  unfold enterDown
  dsimp only
  split <;> simp

@[simp] theorem becomeEmpty_tags (b : Bool) : (becomeEmpty n b s).tags = s.tags := by
  rw [becomeEmpty, modCard_tags, moveTo_tags, discardQueue_tags, journalRestart_tags]

@[simp] theorem tryBind_tags (b : Bool) : (tryBind n b s).tags = s.tags := by
  unfold tryBind
  split
  · rfl
  · exact handOver_tags n s _ _

@[simp] theorem bindCard_tags (i : Identity) : (bindCard n i s).tags = s.tags := by
  rw [bindCard, enterService_tags, modCard_tags]

@[simp] theorem takeEffectAtOnce_tags : (takeEffectAtOnce n s).tags = s.tags := by
  unfold takeEffectAtOnce
  dsimp only
  split
  · rw [readyTimerOnMove_tags]
    split <;> simp
  · exact becomeEmpty_tags n s _

end Moves

/-! ## The Relink Controller: failures, identification and commands -/

section Cards

variable (n : Slot) (s : State)

@[simp] theorem quarantine_tags (r : Reason) : (quarantine n r s).tags = s.tags := by
  unfold quarantine
  dsimp only
  split <;> simp

@[simp] theorem cardFailure_tags (k : FailureKind) : (cardFailure n k s).tags = s.tags := by
  unfold cardFailure forceRestartIfAligned
  dsimp only
  split
  · simp
  · split <;> simp

@[simp] theorem reportParity_tags : (reportParity n s).tags = s.tags := by
  unfold reportParity
  split <;> simp

@[simp] theorem renew_tags : (renew n s).tags = s.tags := by
  unfold renew
  dsimp only
  split
  · simp
  · split <;> simp

@[simp] theorem returnToService_tags : (returnToService n s).tags = s.tags := by
  unfold returnToService
  split <;> simp

@[simp] theorem judgeFresh_tags : (judgeFresh n s).tags = s.tags := by
  unfold judgeFresh
  split <;> simp

@[simp] theorem rebind_tags (i : Identity) : (rebind n i s).tags = s.tags := modCard_tags n s _

@[simp] theorem compareIdentity_tags (i : Identity) (f : Bool) : (compareIdentity n i f s).tags = s.tags := by
  unfold compareIdentity
  split
  · rfl
  · split
    · simp
    · split
      · split <;> simp
      · dsimp only
        split
        · simp
        · split <;> simp

@[simp] theorem judgeEmpty_tags (i : Identity) (f : Bool) : (judgeEmpty n i f s).tags = s.tags := by
  unfold judgeEmpty
  split <;> simp

@[simp] theorem judgeWatched_tags (i : Identity) (f : Bool) : (judgeWatched n i f s).tags = s.tags := by
  unfold judgeWatched
  split
  · rfl
  · split <;> simp

@[simp] theorem judgeCleared_tags (i : Identity) : (judgeCleared n i s).tags = s.tags := by
  unfold judgeCleared
  split
  · rfl
  · split <;> simp

@[simp] theorem watchRead_tags : (watchRead n s).tags = s.tags := by
  unfold watchRead
  split <;> simp

@[simp] theorem identityTaken_tags (i : Identity) (b : Bool) : (identityTaken n i b s).tags = s.tags := by
  unfold identityTaken
  split
  · split <;> simp
  · simp
  · simp
  · simp
  · simp
  · split <;> simp
  · split <;> simp
  · rfl

@[simp] theorem returnFromLoss_tags : (returnFromLoss n s).tags = s.tags := by
  unfold returnFromLoss
  split
  · exact enterIdentify_tags n s
  · dsimp only
    split <;> simp

@[simp] theorem acquired_tags (b : Bool) : (acquired n b s).tags = s.tags := by
  unfold acquired
  dsimp only
  rw [readyTimerOnLink_tags]
  split
  · split <;> simp
  · split
    · simp
    · split <;> simp
  all_goals simp

@[simp] theorem freshRise_tags : (freshRise n s).tags = s.tags := by
  unfold freshRise
  cases (s.slot n).card.state
  case inService => dsimp only; split <;> simp
  all_goals simp

@[simp] theorem readyRise_tags : (readyRise n s).tags = s.tags := by
  unfold readyRise
  split <;> simp

@[simp] theorem pgoodChange_tags (b : Bool) : (pgoodChange n b s).tags = s.tags := by
  unfold pgoodChange
  split
  · split <;> simp
  · split <;> simp
  · split <;> simp
  · rfl

@[simp] theorem linkLost_tags : (linkLost n s).tags = s.tags := by
  unfold linkLost
  cases (s.slot n).card.state
  case quarantined => dsimp only; split <;> simp
  all_goals simp

@[simp] theorem failureReported_tags (src : Source) : (failureReported n src s).tags = s.tags := by
  unfold failureReported
  cases (s.slot n).card.state
  case empty => dsimp only; split <;> simp
  all_goals simp

@[simp] theorem commandAcked_tags (c : Command) : (commandAcked n c s).tags = s.tags := by
  unfold commandAcked
  split
  · cases c <;> simp [commandInService]
  · cases c <;> simp [commandQuarantined]
  · rfl

end Cards

/-! ## Outcomes of transactions -/

section Outcomes

variable (n : Slot) (s : State)

@[simp] theorem answerRead_tags (r : Response) (b : Bool) : (answerRead n r b s).tags = s.tags := by
  unfold answerRead
  split
  · rfl
  · split <;> simp

@[simp] theorem headAcked_tags : (headAcked n s).tags = s.tags := by
  unfold headAcked
  split
  · rfl
  · dsimp only
    split
    · simp
    · split <;> simp

@[simp] theorem headRefused_tags : (headRefused n s).tags = s.tags := by
  unfold headRefused
  split
  · rfl
  · dsimp only
    split <;> simp

@[simp] theorem adoptAcked_tags : (adoptAcked n s).tags = s.tags := by
  unfold adoptAcked
  cases (s.slot n).card.state
  case empty => dsimp only; split <;> simp
  all_goals simp

@[simp] theorem adoptRefused_tags : (adoptRefused n s).tags = s.tags := by
  unfold adoptRefused
  split <;> simp

@[simp] theorem identityRefused_tags : (identityRefused n s).tags = s.tags := by
  unfold identityRefused
  split <;> simp

@[simp] theorem recordAnswered_tags (b : Bool) : (recordAnswered n b s).tags = s.tags := by
  unfold recordAnswered
  split
  · split
    · simp
    · dsimp only
      split <;> simp
  · rfl

theorem ackTaken_tags (src : Source) : (ackTaken n src s).tags = s.tags := by
  unfold ackTaken
  cases src with
  | relink r => dsimp only; split <;> simp
  | read => simp
  | queueHead => simp
  | unlock => rfl

theorem nakTaken_tags (src : Source) : (nakTaken n src s).tags = s.tags := by
  unfold nakTaken
  cases src with
  | relink r => dsimp only; split <;> simp
  | read => simp
  | queueHead => simp
  | unlock => rfl

theorem dataTaken_tags (src : Source) (v : Word32) : (dataTaken n src v s).tags = s.tags := by
  unfold dataTaken
  cases src with
  | relink r => dsimp only; split <;> simp
  | read => simp
  | queueHead => simp
  | unlock => rfl

/-- No response, taken or stray, moves a tag. -/
@[simp] theorem takeResponse_tags (r : Resp) : (takeResponse n r s).tags = s.tags := by
  unfold takeResponse
  split
  · rfl
  · split
    · split
      · exact modLink_tags n s _
      · rw [ackTaken_tags, endAnswered_tags]
      · rw [nakTaken_tags, endAnswered_tags]
      · rw [dataTaken_tags, endAnswered_tags]
    · rfl

@[simp] theorem failTransaction_tags (t : Txn) : (failTransaction n t s).tags = s.tags := by
  unfold failTransaction
  dsimp only
  split
  · split <;> simp
  all_goals simp

@[simp] theorem reportChanges_tags (old new : StatusBits) (b : Bool) : (reportChanges n old new b s).tags = s.tags := by
  simp [reportChanges, apply_ite State.tags]

@[simp] theorem checkQuarantinedHead_tags : (checkQuarantinedHead n s).tags = s.tags := by
  unfold checkQuarantinedHead
  split
  · split <;> simp
  · rfl

end Outcomes

/-! ## The considerations and a part-level fault -/

theorem takeChannel_tags (c : ChannelNo) (e : ListEntry) (s : State) : (takeChannel c e s).tags = s.tags := by
  simp [takeChannel]

theorem applyGrant_tags (c : Claim) (s : State) : (applyGrant c s).tags = s.tags := by
  unfold applyGrant
  split
  · split
    · split
      · exact takeChannel_tags _ _ s
      · rfl
    · rfl
  · split
    · split <;> simp
    · rfl

theorem askRecord_tags (u : ChannelUse) (s : State) : (askRecord u s).tags = s.tags := by
  unfold askRecord
  split
  · simp
  · split <;> simp

/-- No consideration starts a request: a record or an ADOPT is handed over for the dispatcher. -/
theorem consider_tags {s t : State} (h : consider s = some t) : t.tags = s.tags := by
  obtain h | h | h | h | h | h | h | h | h := consider_cases h
  · unfold considerSupplyLost at h
    split at h
    · cases h
    · split at h <;> cases h
      · simp
      · exact modLink_tags _ s _
  · unfold considerAdmissionWithdrawn at h
    split at h <;> cases h
    rfl
  · unfold considerGrant at h
    split at h
    · cases h
    · split at h
      · cases h
      · split at h <;> cases h
        simp [applyGrant_tags]
  · unfold considerClearFlag at h
    split at h <;> cases h
    rfl
  · unfold considerSuspend at h
    split at h <;> cases h
    simp
  · unfold considerChannel at h
    split at h
    · cases h
    · split at h <;> cases h
      · simp
      · exact askRecord_tags _ s
  · unfold considerAdmissionPlaced at h
    split at h
    · cases h
    · split at h <;> cases h
      rfl
  · unfold considerResume at h
    split at h
    · split at h <;> cases h
      exact takeChannel_tags _ _ s
    · cases h
  · unfold considerPreempt at h
    split at h
    · split at h <;> cases h
      rfl
    · cases h

theorem settle_tags (s : State) : (settle s).tags = s.tags :=
  settleWith_induction (P := fun s t => t.tags = s.tags) (fun _ => rfl) (fun h k => k.trans h) consider_tags settleFuel s

theorem releaseUnprotected_tags (n : Slot) (s : State) : (releaseUnprotected n s).tags = s.tags := by
  have keepOutstanding (x : Option Txn) (t : State) : (modLink n (fun l => { l with outstanding := x }) t).tags = t.tags :=
    modLink_tags n t _
  have keepPending (r : Option RelinkReq) (t : State) :
      (modLink n (fun l => { l with pendingRelink := r }) t).tags = t.tags :=
    modLink_tags n t _
  unfold releaseUnprotected
  split
  · dsimp only
    rw [checkSupply_tags]
    split <;> simp [keepOutstanding, keepPending]
  · rfl

theorem journalWipe_tags (s : State) : (journalWipe s).tags = s.tags :=
  tags_of_links fun m => by rw [journalWipe_slot]; rfl

theorem enterUnprotected_tags (s : State) : (enterUnprotected s).tags = s.tags := by
  unfold enterUnprotected
  dsimp only
  rw [foldl_slots_keep State.tags _ (fun t n => releaseUnprotected_tags n t)]
  exact journalWipe_tags _

theorem answerPartFault_tags (s : State) : (answerPartFault s).tags = s.tags := by
  unfold answerPartFault
  split
  · split
    · exact enterUnprotected_tags s
    · rfl
  · rfl

end Sys2Proof.Machine
end

section
/-!
PROOFS. No link's tag counter comes to stand at its last write tag (R101): starting a request sets the two apart, and everything
else that a step does leaves them as they are.
-/

namespace Sys2Proof.Machine

/-! ## Starting a request and the dispatchers -/

/-- The counter leaves the tag it stood at. -/
theorem nextTagCounter_ne_self (c : Tag) (l : Option Tag) : nextTagCounter c l ≠ c := by
  unfold nextTagCounter
  split <;> bv_omega

/-- Whatever its tags were, a link that starts a request has them apart: the counter leaves the tag it stood at, which a WRITE
takes, and passes over the last write tag, which any other request leaves. -/
theorem startRequest_tagsApart_self (n : Slot) (k : ReqKind) (b : Bool) (w : WordNo) (v : Word32) (src : Source) (s : State) :
    ((startRequest n k b w v src s).slot n).link.lastWriteTag ≠
      some ((startRequest n k b w v src s).slot n).link.tagCounter := by
  simp only [startRequest, modLink_link_self]
  split
  · exact fun e => nextTagCounter_ne_self _ _ (Option.some.inj e).symm
  · exact nextTagCounter_ne_last _ _

section Starting

variable {s : State} (h : TagsApart s) (n : Slot)
include h

theorem startRequest_tagsApart (k : ReqKind) (b : Bool) (w : WordNo) (v : Word32) (src : Source) :
    TagsApart (startRequest n k b w v src s) := fun m => by
  by_cases e : m = n
  · subst e; exact startRequest_tagsApart_self m k b w v src s
  · rw [(startRequest_linkStep n k b w v src s).others m e]
    exact h m

theorem startUnlock_tagsApart : TagsApart (startUnlock n s) :=
  startRequest_tagsApart (h.congr (modLink_tags n s _)) n _ _ _ _ _

theorem startRelink_tagsApart (r : RelinkReq) : TagsApart (startRelink n r s) := by
  have cleared : TagsApart (modLink n (fun l => { l with pendingRelink := none }) s) :=
    h.congr (modLink_tags n s _)
  unfold startRelink
  cases r.what <;> exact startRequest_tagsApart cleared n _ _ _ _ _

theorem startRead_tagsApart (r : PendingRead) : TagsApart (startRead n r s) :=
  startRequest_tagsApart (h.congr (modLink_tags n s _)) n _ _ _ _ _

theorem startHead_tagsApart (q : QEntry) : TagsApart (startHead n q s) :=
  startRequest_tagsApart (h.congr (modQueue_tags n s _)) n _ _ _ _ _

theorem dispatch_tagsApart : TagsApart (dispatch n s) := by
  obtain e | ⟨-, -, ⟨-, e⟩ | ⟨r, -, e⟩ | ⟨r, -, e⟩ | ⟨q, rest, -, -, e⟩⟩ := dispatch_cases n s <;> rw [e]
  · exact h
  · exact startUnlock_tagsApart h n
  · exact startRelink_tagsApart h n r
  · exact startRead_tagsApart h n r
  · exact startHead_tagsApart h n q

end Starting

/-! ## The end of an event -/

theorem dispatchAll_tagsApart {s : State} (h : TagsApart s) : TagsApart (dispatchAll s) :=
  List.foldlRecOn allSlots _ h fun _ ht n _ => dispatch_tagsApart ht n

theorem finish_tagsApart {s : State} (h : TagsApart s) : TagsApart (finish s) :=
  dispatchAll_tagsApart (h.congr ((answerPartFault_tags _).trans (settle_tags s)))

theorem finishLink_tagsApart {s : State} (h : TagsApart s) (n : Slot) : TagsApart (finishLink n s) :=
  finish_tagsApart (h.congr (checkQuarantinedHead_tags n s))

/-! ## Accesses -/

section Accesses

variable {s : State} (h : TagsApart s)
include h

theorem respond_tagsApart (r : Response) : TagsApart (respond r s) := h.congr (respond_tags s r)

theorem abandonLock_tagsApart (a : Access) : TagsApart (abandonLock a s) := by
  unfold abandonLock
  split
  · exact h
  · split
    · exact h
    · exact dispatch_tagsApart (h.congr (by simp)) _

theorem offerWrite_tagsApart (n : Slot) (w : WordNo) (v : Word32) (k : WriteKind) (c : Option RangeClass) :
    TagsApart (offerWrite n w v k c s) := by
  unfold offerWrite
  split
  · exact dispatch_tagsApart (h.congr (by simp)) n
  · exact respond_tagsApart h _

theorem judgeLockedWrite_tagsApart (a : Access) (c : RangeClass) : TagsApart (judgeLockedWrite a c s) := by
  unfold judgeLockedWrite
  split
  · exact respond_tagsApart h _
  · split
    · split
      · exact offerWrite_tagsApart (h.congr (tags_with_port s _)) _ _ _ _ _
      · exact respond_tagsApart h _
    · exact respond_tagsApart h _

theorem offerQuarantined_tagsApart (n : Slot) (c : Command) : TagsApart (offerQuarantined n c s) := by
  unfold offerQuarantined
  split
  · exact offerWrite_tagsApart h _ _ _ _ _
  · split
    · exact respond_tagsApart h _
    · exact finish_tagsApart (h.congr (by simp))

theorem judgeCommand_tagsApart (n : Slot) (c : Command) : TagsApart (judgeCommand n c s) := by
  unfold judgeCommand
  split
  · exact respond_tagsApart h _
  · split
    · exact offerQuarantined_tagsApart h n c
    · exact respond_tagsApart h _
  · exact offerWrite_tagsApart h _ _ _ _ _

theorem holdRead_tagsApart (n : Slot) (w : WordNo) (b : Bool) : TagsApart (holdRead n w b s) :=
  dispatch_tagsApart (h.congr ((modLink_tags n _ _).trans (tags_with_port s _))) n

theorem answerWith_tagsApart (v : Option Word32) : TagsApart (answerWith v s) := by
  cases v <;> exact respond_tagsApart h _

theorem shadowRead_tagsApart (n : Slot) (w : WordNo) : TagsApart (shadowRead n w s) := by
  unfold shadowRead
  split
  · exact respond_tagsApart h _
  · split
    · exact respond_tagsApart h _
    · split
      · exact finish_tagsApart (h.congr (by simp))
      · exact respond_tagsApart h _

theorem judgeRead_tagsApart (n : Slot) (w : WordNo) (c : RangeClass) : TagsApart (judgeRead n w c s) := by
  unfold judgeRead
  split
  · split
    · exact holdRead_tagsApart h n w _
    · split
      · exact answerWith_tagsApart h _
      · exact respond_tagsApart h _
  · split
    · split
      · exact respond_tagsApart h _
      · exact shadowRead_tagsApart h n w
    · exact respond_tagsApart h _

theorem judgeLockedRead_tagsApart (n : Slot) (w : WordNo) : TagsApart (judgeLockedRead n w s) := by
  unfold judgeLockedRead
  split
  · exact holdRead_tagsApart h n w _
  · exact respond_tagsApart h _

theorem judgeCard_tagsApart (a : Access) (k : AccessKind) (c : RangeClass) : TagsApart (judgeCard a k c s) := by
  unfold judgeCard
  split
  · exact respond_tagsApart h _
  · cases k with
    | read => exact judgeRead_tagsApart h _ _ c
    | write => exact offerWrite_tagsApart h _ _ _ _ _
    | orderedWrite => exact offerWrite_tagsApart h _ _ _ _ _
    | lockedRead => exact judgeLockedRead_tagsApart h _ _
    | lockedWrite => exact judgeLockedWrite_tagsApart h a c

theorem readStatus_tagsApart (n : Slot) : TagsApart (readStatus n s) := h.congr (by simp [readStatus])

theorem judgeHeader_tagsApart (a : Access) (k : AccessKind) : TagsApart (judgeHeader a k s) := by
  unfold judgeHeader
  split
  · split <;> exact respond_tagsApart h _
  · split
    · split
      · exact respond_tagsApart h _
      · exact respond_tagsApart h _
      · split
        · exact respond_tagsApart h _
        · exact judgeCommand_tagsApart h _ _
    · split
      · split
        · exact respond_tagsApart h _
        · exact judgeCard_tagsApart h a k _
      · split
        · exact readStatus_tagsApart h _
        · exact respond_tagsApart h _

theorem judgeForm_tagsApart (a : Access) : TagsApart (judgeForm a s) := by
  unfold judgeForm
  split
  · exact respond_tagsApart h _
  · split
    · exact respond_tagsApart h _
    · split
      · exact judgeHeader_tagsApart h a _
      · split
        · exact respond_tagsApart h _
        · exact judgeCard_tagsApart h a _ _

theorem judge_tagsApart (a : Access) : TagsApart (judge a s) := by
  unfold judge
  split
  · exact h
  · split
    · exact respond_tagsApart h _
    · exact judgeForm_tagsApart (abandonLock_tagsApart h a) a

end Accesses

/-! ## Framing -/

section Framing

variable {s : State} (h : TagsApart s) (n : Slot)
include h

theorem searchFrame_tagsApart : TagsApart (searchFrame n s) := by
  unfold searchFrame
  dsimp only
  split
  · exact dispatch_tagsApart (h.congr (by simp)) n
  · split <;> exact h.congr (by simp)

theorem declareOutOfFrame_tagsApart (c : LossCause) (part : Bool) : TagsApart (declareOutOfFrame n c part s) := by
  have spared (t : State) : (modLink n (fun l => { l with unlockOwed := false }) t).tags = t.tags :=
    modLink_tags n t _
  exact finishLink_tagsApart (h.congr (by simp [spared])) n

theorem unerroredMultiframe_tagsApart (p : Position) (history : List Bool) :
    TagsApart (unerroredMultiframe n p history s) := by
  unfold unerroredMultiframe
  dsimp only
  split
  · split
    · exact h.congr (modFramer_tags n s _)
    · exact finishLink_tagsApart (h.congr (by simp)) n
  · exact finishLink_tagsApart (h.congr (by simp)) n

theorem judgeMultiframe_tagsApart (p : Position) : TagsApart (judgeMultiframe n p s) := by
  unfold judgeMultiframe
  dsimp only
  split
  · exact declareOutOfFrame_tagsApart h n _ _
  · split
    · exact h.congr (modFramer_tags n s _)
    · exact unerroredMultiframe_tagsApart h n p _

end Framing

/-! ## Commands -/

/-- Where the outcome of a command is a next state, every link's tags are apart in it. -/
def LeavesTagsApart (o : Host.Outcome State Fault Refusal) : Prop := ∀ t : State, o = .next t → TagsApart t

theorem TagsApart.begun {s : State} (h : TagsApart s) : TagsApart (beginEvent s) := h.congr (beginEvent_tags s)

theorem TagsApart.leaves {t : State} (h : TagsApart t) : LeavesTagsApart (.next t) := fun u e => by
  cases e; exact h

theorem reset_tagsApart : TagsApart State.reset := fun m => by
  have e : State.reset.slot m = SlotState.reset := by simp [State.slot, State.reset]
  rw [e]
  exact (Option.some_ne_none _).symm

theorem publishOutcome_tags (p : Option Profile) (s : State) : (publishOutcome p s).tags = s.tags := by
  cases p <;> rfl

theorem forceIdentity_tags (n : Slot) (s : State) : (forceIdentity n s).tags = s.tags := by
  unfold forceIdentity
  dsimp only
  split <;> simp

section Commands

variable {s : State} (h : TagsApart s)
include h

omit h in
theorem execRstAsserted_leavesTagsApart : LeavesTagsApart (execRstAsserted s) :=
  TagsApart.leaves (reset_tagsApart.congr rfl)

theorem execRstDeasserted_leavesTagsApart : LeavesTagsApart (execRstDeasserted s) := by
  unfold execRstDeasserted
  dsimp only
  split
  · exact TagsApart.leaves (h.begun.congr rfl)
  · exact TagsApart.leaves h.begun

theorem execProfileHeaderRead_leavesTagsApart (b : Vector Byte 6) : LeavesTagsApart (execProfileHeaderRead b s) := by
  unfold execProfileHeaderRead
  dsimp only
  split
  · split
    · exact TagsApart.leaves (h.begun.congr rfl)
    · exact TagsApart.leaves (h.congr (publishOutcome_tags _ _))
  · exact TagsApart.leaves h.begun

theorem execLoadComplete_leavesTagsApart (b : List Byte) : LeavesTagsApart (execLoadComplete b s) := by
  unfold execLoadComplete
  dsimp only
  split
  · exact TagsApart.leaves (h.congr (publishOutcome_tags _ _))
  · exact TagsApart.leaves h.begun

theorem execReceiveFrameEnd_leavesTagsApart (n : Slot) (f : RxFrame) : LeavesTagsApart (execReceiveFrameEnd n f s) := by
  unfold execReceiveFrameEnd
  dsimp only
  split
  · exact TagsApart.leaves h.begun
  · split
    · split
      · exact TagsApart.leaves (h.congr (by simp))
      · exact TagsApart.leaves (searchFrame_tagsApart (h.congr (by simp)) n)
    · exact TagsApart.leaves (h.congr (by simp))

theorem execMultiframeJudged_leavesTagsApart (n : Slot) : LeavesTagsApart (execMultiframeJudged n s) := by
  unfold execMultiframeJudged
  dsimp only
  split
  · exact TagsApart.leaves h.begun
  · split
    · exact TagsApart.leaves (judgeMultiframe_tagsApart h.begun n _)
    · exact TagsApart.leaves h.begun

theorem execLossOfSignal_leavesTagsApart (n : Slot) : LeavesTagsApart (execLossOfSignal n s) := by
  unfold execLossOfSignal
  dsimp only
  split
  · exact TagsApart.leaves h.begun
  · split
    · exact TagsApart.leaves (declareOutOfFrame_tagsApart (h.congr (by simp)) n _ _)
    · exact TagsApart.leaves (h.congr (by simp))

theorem execTransmitMultiframeStart_leavesTagsApart (n : Slot) : LeavesTagsApart (execTransmitMultiframeStart n s) := by
  unfold execTransmitMultiframeStart
  dsimp only
  split
  · exact TagsApart.leaves h.begun
  · exact TagsApart.leaves (h.congr (modLink_tags n _ _ beginMultiframe_tags))

theorem execResponseTimeout_leavesTagsApart (n : Slot) : LeavesTagsApart (execResponseTimeout n s) := by
  unfold execResponseTimeout
  dsimp only
  split
  · exact TagsApart.leaves h.begun
  · split
    · split
      · exact TagsApart.leaves (h.congr (modLink_tags n _ _))
      · exact TagsApart.leaves (finishLink_tagsApart (h.congr (by simp)) n)
    · exact TagsApart.leaves h.begun

theorem execWaitTimerExpiry_leavesTagsApart (n : Slot) : LeavesTagsApart (execWaitTimerExpiry n s) := by
  unfold execWaitTimerExpiry
  dsimp only
  split
  · exact TagsApart.leaves h.begun
  · split
    · exact TagsApart.leaves (h.congr (modLink_tags n _ _))
    · exact TagsApart.leaves h.begun

theorem execCommitLimitExpiry_leavesTagsApart (n : Slot) : LeavesTagsApart (execCommitLimitExpiry n s) := by
  unfold execCommitLimitExpiry
  dsimp only
  split
  · exact TagsApart.leaves h.begun
  · split
    · exact TagsApart.leaves (finishLink_tagsApart (h.congr (by simp)) n)
    · exact TagsApart.leaves h.begun

theorem execReadyLimitExpiry_leavesTagsApart (n : Slot) : LeavesTagsApart (execReadyLimitExpiry n s) := by
  unfold execReadyLimitExpiry
  dsimp only
  split
  · split
    · exact TagsApart.leaves (dispatch_tagsApart (h.congr (by simp [forceIdentity_tags])) n)
    · exact TagsApart.leaves (h.congr (by simp))
    · exact TagsApart.leaves (h.congr (by simp))
    · exact TagsApart.leaves (finishLink_tagsApart (h.congr (by simp)) n)
  · exact TagsApart.leaves h.begun

theorem execHoldOffExpiry_leavesTagsApart (n : Slot) : LeavesTagsApart (execHoldOffExpiry n s) := by
  unfold execHoldOffExpiry
  dsimp only
  split
  · exact TagsApart.leaves (dispatch_tagsApart (h.congr (by simp)) n)
  · exact TagsApart.leaves h.begun

theorem execAbsenceLimitExpiry_leavesTagsApart (n : Slot) : LeavesTagsApart (execAbsenceLimitExpiry n s) := by
  unfold execAbsenceLimitExpiry
  dsimp only
  split
  · exact TagsApart.leaves (finish_tagsApart (h.congr (by simp)))
  · exact TagsApart.leaves h.begun

theorem execStabilityWindowExpiry_leavesTagsApart (n : Slot) : LeavesTagsApart (execStabilityWindowExpiry n s) := by
  unfold execStabilityWindowExpiry
  dsimp only
  split
  · exact TagsApart.leaves (h.congr (by simp))
  · exact TagsApart.leaves h.begun

/-- Every command that is an access is judged at the beginning of its event. -/
theorem judge_leavesTagsApart (a : Access) : LeavesTagsApart (.next (judge a (beginEvent s))) :=
  TagsApart.leaves (judge_tagsApart h.begun a)

theorem execPacerTick_leavesTagsApart : LeavesTagsApart (execPacerTick s) := by
  unfold execPacerTick
  dsimp only
  split
  · exact TagsApart.leaves (finish_tagsApart (h.begun.congr rfl))
  · exact TagsApart.leaves h.begun

theorem execPwarnAsserted_leavesTagsApart : LeavesTagsApart (execPwarnAsserted s) := by
  unfold execPwarnAsserted
  dsimp only
  split
  · exact TagsApart.leaves h.begun
  · split <;> exact TagsApart.leaves (h.begun.congr rfl)

theorem execPwarnDeasserted_leavesTagsApart : LeavesTagsApart (execPwarnDeasserted s) := by
  unfold execPwarnDeasserted
  dsimp only
  split
  · split
    · exact TagsApart.leaves (finish_tagsApart (h.begun.congr rfl))
    · exact TagsApart.leaves (h.begun.congr rfl)
  · exact TagsApart.leaves h.begun

theorem execQuietIntervalExpiry_leavesTagsApart : LeavesTagsApart (execQuietIntervalExpiry s) := by
  unfold execQuietIntervalExpiry
  dsimp only
  split
  · exact TagsApart.leaves (h.begun.congr rfl)
  · exact TagsApart.leaves h.begun

theorem exec_leavesTagsApart (c : Instr) : LeavesTagsApart (exec c s) := by
  cases c with
  | rstAsserted => exact execRstAsserted_leavesTagsApart
  | rstDeasserted => exact execRstDeasserted_leavesTagsApart h
  | profileHeaderRead b => exact execProfileHeaderRead_leavesTagsApart h b
  | loadComplete b => exact execLoadComplete_leavesTagsApart h b
  | receiveFrameEnd n f => exact execReceiveFrameEnd_leavesTagsApart h n f
  | multiframeJudged n => exact execMultiframeJudged_leavesTagsApart h n
  | lossOfSignal n => exact execLossOfSignal_leavesTagsApart h n
  | transmitMultiframeStart n => exact execTransmitMultiframeStart_leavesTagsApart h n
  | responseTimeout n => exact execResponseTimeout_leavesTagsApart h n
  | waitTimerExpiry n => exact execWaitTimerExpiry_leavesTagsApart h n
  | commitLimitExpiry n => exact execCommitLimitExpiry_leavesTagsApart h n
  | readyLimitExpiry n => exact execReadyLimitExpiry_leavesTagsApart h n
  | holdOffExpiry n => exact execHoldOffExpiry_leavesTagsApart h n
  | absenceLimitExpiry n => exact execAbsenceLimitExpiry_leavesTagsApart h n
  | stabilityWindowExpiry n => exact execStabilityWindowExpiry_leavesTagsApart h n
  | pacerTick => exact execPacerTick_leavesTagsApart h
  | pwarnAsserted => exact execPwarnAsserted_leavesTagsApart h
  | pwarnDeasserted => exact execPwarnDeasserted_leavesTagsApart h
  | quietIntervalExpiry => exact execQuietIntervalExpiry_leavesTagsApart h
  | _ => exact judge_leavesTagsApart h _

end Commands

/-! ## The step -/

theorem idle_tags (s : State) : (idle s).tags = s.tags := tags_of_links fun m => by rw [idle_slot]; rfl

/-- Settles O11: a request started, whichever it is, sets its link's tags apart, and nothing else in a step but RST, which leaves
no last write tag, changes a tag. -/
theorem nextTagIsNeverLastWriteTag : Obligations.NextTagIsNeverLastWriteTag := by
  unfold Obligations.NextTagIsNeverLastWriteTag
  intro s t h e
  cases hp : s.pending with
  | nil =>
    rw [step_of_pending_nil hp] at e
    exact TagsApart.leaves (h.congr (idle_tags s)) t e
  | cons c rest =>
    rw [step_of_pending_cons hp] at e
    exact exec_leavesTagsApart (h.congr (tags_with_pending s rest)) c t e

end Sys2Proof.Machine
end
